-- ==== Sys2Proof/Word.lean ====
section
/-! DEFINITION. The word types of the block `VCDEC`: every width the spec gives a port, a register or an internal
word (`00_scope.md` R6, `30_encoding.md` R71, R75, R78, R79). -/

namespace Sys2Proof

/-- One byte, as words are laid out for the host (`Decode.lean`). -/
abbrev Byte := BitVec 8

/-- A timestamp in microseconds: unsigned, `TS_W` = 32 bits (R6, R21). -/
abbrev Timestamp := BitVec 32

/-- The event word `EV` of the event port (R71). -/
abbrev EventWord := BitVec 34

/-- The pulse dispatch word `PW` the classifier hands to the assembler (R75). -/
abbrev PulseWord := BitVec 5

/-- The output record `OUT` as a word (R78). -/
abbrev OutWord := BitVec 16

/-- The decoded-time register `DT` (R79). -/
abbrev TimeWord := BitVec 50

end Sys2Proof
end

