-- ==== Sys2Proof/Config.lean ====
section
/-! DEFINITION. Configuration the state after reset starts from. The numeric parameters of R6 stand in
`Machine/Params.lean`, where a correction of a literal can reach them (U1); what is left here is the level the two
configuration inputs are drawn at in `State.reset`. No value of the block is undefined after a step, so there is no
free value (log entry 12). -/

namespace Sys2Proof.Config

/-- `CENTURY`: "default 21" (R6, R34). -/
def defaultCentury : BitVec 8 := 21

/-- The level of the input `POL` in `State.reset`: DESIGN CHOICE, log entry 1. The spec leaves `CARRIER_ON_EDGE` OPEN
(R6, R33, D4); every input of a run carries its own level of `POL`, and no statement rests on this one. -/
def resetPol : Bool := true

end Sys2Proof.Config
end

