-- ==== Sys2Proof/Syntax.lean ====
section
/-! DEFINITION. What the block executes. R5 fixes the correspondence: an "instruction" is one input event (`EDGE.R`,
`EDGE.F`, `WDOG`, `STOP`, and the `RESET` pin) or, inside an edge step, one of the sixteen classified pulses the
classifier dispatches to the assembler. One constructor of `Instr` per row of `spec/opcode_table.json`. -/

namespace Sys2Proof

/-- The eight nominal widths a pulse can be classified as (R74). There is no 600 ms symbol, and the reserved codes
are no symbols (R83 (b)), so the type does not contain them. -/
inductive Width where
  | w100 | w200 | w300 | w400 | w500 | w700 | w800 | w900
deriving DecidableEq, Repr

/-- The direction of an edge (R70). -/
inductive Direction where
  /-- `R` -/
  | rising
  /-- `F` -/
  | falling
deriving DecidableEq, Repr

/-- Which kind of pulse an edge ended (R75, R109): `pol = 0` carrier-off, `pol = 1` carrier-on. -/
inductive Polarity where
  | carrierOff
  | carrierOn
deriving DecidableEq, Repr

/-- A classified pulse, the content of a dispatch word `PW` (R75). -/
structure Pulse where
  pol : Polarity
  width : Width
deriving DecidableEq, Repr

/-- The two channels of a minute frame, the only address spaces of the block (R50). -/
inductive Channel where
  | A
  | B
deriving DecidableEq, Repr

/-- The operations of the block (R72, R73, R75). `WDOG` and `STOP` carry no operand: the `ts` field of their event
words is ignored (R71, U4). -/
inductive Instr where
  /-- `EDGE.F`: a falling edge at `ts` (R111). -/
  | edgeF (ts : Timestamp)
  /-- `EDGE.R`: a rising edge at `ts` (R110). -/
  | edgeR (ts : Timestamp)
  /-- `WDOG`: watchdog timeout (R191). -/
  | wdog
  /-- `STOP`: stop request (R192). -/
  | stop
  /-- `RESET`: the pin `rst` (R190). -/
  | reset
  /-- `OFF.100` (R133). -/
  | off100
  /-- `OFF.200` (R134). -/
  | off200
  /-- `OFF.300` (R135). -/
  | off300
  /-- `OFF.400` (R137). -/
  | off400
  /-- `OFF.500`, the minute-marker pulse (R132). -/
  | off500
  /-- `OFF.700` (R137). -/
  | off700
  /-- `OFF.800` (R137). -/
  | off800
  /-- `OFF.900` (R137). -/
  | off900
  /-- `ON.100` (R144). -/
  | on100
  /-- `ON.200` (R144). -/
  | on200
  /-- `ON.300` (R144). -/
  | on300
  /-- `ON.400` (R144). -/
  | on400
  /-- `ON.500`, the second marker (R142). -/
  | on500
  /-- `ON.700` (R143). -/
  | on700
  /-- `ON.800` (R144). -/
  | on800
  /-- `ON.900` (R140). -/
  | on900
deriving DecidableEq, Repr

/-- What can be put before the block to be taken in one step: a word on the event port (R71), an assertion and
release of the reset pin as one input (R73, log entry 13), or a dispatch word. The last is internal to the block (R75): no source of the
environment offers one; the model admits it so that each pulse operation of the opcode table can also be run on its
own (log entry 6). -/
inductive Offer where
  | event (w : EventWord)
  | rst
  | pulse (w : PulseWord)
deriving DecidableEq, Repr

end Sys2Proof
end

