-- ==== Sys2Proof/WellFormed.lean ====
section
/-! DEFINITION. What the spec calls reserved or outside the block's domain, as decidable checks. A term of `Instr` has
no ill-formed value: a timestamp is 32 bits by its type, and no event word is illegal (R72, R83 (a)). What can be
ill-formed is a dispatch word (R75, R83 (e)) and the configuration input `CENTURY` (R34, R83 (d)). -/

namespace Sys2Proof

/-- The symbol codes a dispatch word may carry: 1, 2, 3, 4, 5, 7, 8, 9 (R75). "the dispatch word `PW` never carries
code 0, 6, 10-15" (R83 (e)). -/
def legalPulseCode (c : BitVec 4) : Bool :=
  decide (1 ≤ c.toNat ∧ c.toNat ≤ 9 ∧ c.toNat ≠ 6)

/-- A dispatch word is well-formed when its code is one of the eight width codes. -/
def wfPulseWord (w : PulseWord) : Bool := legalPulseCode (w.extractLsb' 0 4)

/-- Legal values of `CENTURY` are 1 to 255; 0 is reserved (R34). -/
def wfCentury (c : BitVec 8) : Bool := c != 0

/-- An offer is well-formed when it can be decoded: every event word, the pin, and a dispatch word of a legal code. -/
def Offer.wf : Offer → Bool
  | .event _ => true
  | .rst => true
  | .pulse w => wfPulseWord w

end Sys2Proof
end

