-- ==== Sys2Proof/Decode.lean ====
section
/-! DEFINITION. Encodings of the block's inputs (`30_encoding.md` R71 to R75, R83, R84): the decoder, total on any
offer and on any bytes and rejecting by name, then the encoder. -/

namespace Sys2Proof

/-- Why something offered is not an operation of the block. -/
inductive DecodeReject where
  /-- A dispatch word whose code is 0, 6 or 10 to 15, which `PW` never carries (R83 (e)). -/
  | reservedPulseCode (w : PulseWord)
  /-- Bytes with a bit set above the word's own width (R84: 34 bits for `EV`, 5 bits for `PW`). -/
  | bitsAboveWord
  /-- Bytes of a length no word of the block has: 0 (the pin), 1 (`PW`) or 5 (`EV`) are the lengths (R84). -/
  | noSuchLength (bytes : Nat)
deriving DecidableEq, Repr

/-- The symbol code of a width (R74). -/
def Width.code : Width → BitVec 4
  | .w100 => 1
  | .w200 => 2
  | .w300 => 3
  | .w400 => 4
  | .w500 => 5
  | .w700 => 7
  | .w800 => 8
  | .w900 => 9

/-- The width a symbol code stands for; none for `NONE`, for `UNCLASSIFIED` and for the reserved codes (R74). -/
def Width.ofCode (c : BitVec 4) : Option Width :=
  match c.toNat with
  | 1 => some .w100
  | 2 => some .w200
  | 3 => some .w300
  | 4 => some .w400
  | 5 => some .w500
  | 7 => some .w700
  | 8 => some .w800
  | 9 => some .w900
  | _ => none

/-- The assembler operation a classified pulse stands for (R75). -/
def Pulse.instr : Pulse → Instr
  | ⟨.carrierOff, .w100⟩ => .off100
  | ⟨.carrierOff, .w200⟩ => .off200
  | ⟨.carrierOff, .w300⟩ => .off300
  | ⟨.carrierOff, .w400⟩ => .off400
  | ⟨.carrierOff, .w500⟩ => .off500
  | ⟨.carrierOff, .w700⟩ => .off700
  | ⟨.carrierOff, .w800⟩ => .off800
  | ⟨.carrierOff, .w900⟩ => .off900
  | ⟨.carrierOn, .w100⟩ => .on100
  | ⟨.carrierOn, .w200⟩ => .on200
  | ⟨.carrierOn, .w300⟩ => .on300
  | ⟨.carrierOn, .w400⟩ => .on400
  | ⟨.carrierOn, .w500⟩ => .on500
  | ⟨.carrierOn, .w700⟩ => .on700
  | ⟨.carrierOn, .w800⟩ => .on800
  | ⟨.carrierOn, .w900⟩ => .on900

/-- An event word, by its `kind` in bits 33 and 32 (R72). All four kinds are used; `ts` of `WDOG` and `STOP` is
ignored (R71). -/
def decodeEvent (w : EventWord) : Instr :=
  match (w.extractLsb' 32 2).toNat with
  | 0 => .edgeF (w.extractLsb' 0 32)
  | 1 => .edgeR (w.extractLsb' 0 32)
  | 2 => .wdog
  | _ => .stop

/-- The content of a dispatch word: bit 4 is `pol`, bits 3 to 0 the symbol code (R75). -/
def decodePulse (w : PulseWord) : Except DecodeReject Pulse :=
  match Width.ofCode (w.extractLsb' 0 4) with
  | some width => .ok ⟨if w.getLsbD 4 then .carrierOn else .carrierOff, width⟩
  | none => .error (.reservedPulseCode w)

/-- The decoder, on whatever is offered to the block. -/
def decode : Offer → Except DecodeReject Instr
  | .event w => .ok (decodeEvent w)
  | .rst => .ok .reset
  | .pulse w =>
    match decodePulse w with
    | .ok p => .ok p.instr
    | .error e => .error e

/-- A number from its bytes, the first byte the least significant. -/
def bytesToNat : List Byte → Nat
  | [] => 0
  | b :: bs => b.toNat + 256 * bytesToNat bs

/-- The low `k` bytes of a number, least significant first. -/
def natToBytes : Nat → Nat → List Byte
  | 0, _ => []
  | k + 1, w => BitVec.ofNat 8 w :: natToBytes k (w / 256)

/-- Bytes as an offer. The words of the block are port words of one fixed length each (R84), never stored in bytes;
how they are laid out in bytes is the host's convention (log entry 7): no byte is the pin `rst`, one byte is a `PW`, five
bytes are an `EV`, low byte first, unused high bits zero. -/
def Offer.ofBytes (bs : List Byte) : Except DecodeReject Offer :=
  match bs.length with
  | 0 => .ok .rst
  | 1 => if bytesToNat bs < 2 ^ 5 then .ok (.pulse (BitVec.ofNat 5 (bytesToNat bs))) else .error .bitsAboveWord
  | 5 => if bytesToNat bs < 2 ^ 34 then .ok (.event (BitVec.ofNat 34 (bytesToNat bs))) else .error .bitsAboveWord
  | k => .error (.noSuchLength k)

/-- The decoder on bytes: total, and rejecting by name. -/
def decodeBytes (bs : List Byte) : Except DecodeReject Instr :=
  match Offer.ofBytes bs with
  | .ok o => decode o
  | .error e => .error e

/-- How many bytes the word of an opcode-table row takes, from the bits the table gives it: none for the pin
`RESET` (width 0), one for a `PW` (width 5), five for an `EV` (width 34). -/
def tableBytes (nbits : Nat) : Nat :=
  if nbits = 0 then 0 else if nbits ≤ 8 then 1 else 5

/-- The offer an opcode-table word stands for. A word wider than its bytes keeps only the bits that fit in them. -/
def tableOffer (nbits w : Nat) : Except DecodeReject Offer :=
  Offer.ofBytes (natToBytes (tableBytes nbits) w)

/-- What the decoder reads from a word numbered as `spec/opcode_table.json` numbers its bits. -/
def decodeTableWord (nbits w : Nat) : Option Instr :=
  match decodeBytes (natToBytes (tableBytes nbits) w) with
  | .ok i => some i
  | .error _ => none

/-! ## The encoder -/

/-- A field placed in a word of `w` bits with its least significant bit at bit `lo` (R8). -/
def placeAt (w lo : Nat) {k : Nat} (x : BitVec k) : BitVec w := x.setWidth w <<< lo

/-- The dispatch word of a pulse: `PW[4]` is `pol`, `PW[3:0]` the code (R75). -/
def Pulse.encode (p : Pulse) : PulseWord :=
  placeAt 5 4 (BitVec.ofBool (decide (p.pol = .carrierOn))) ||| placeAt 5 0 p.width.code

/-- The event word of a kind and a timestamp: `EV[33:32]` is `kind`, `EV[31:0]` is `ts` (R71, R72). -/
def eventWord (kind : BitVec 2) (ts : Timestamp) : EventWord := placeAt 34 32 kind ||| placeAt 34 0 ts

/-- The word (or the pin) of an operation, from the tables of R72, R73 and R75. `ts` of `WDOG` and `STOP` is "any
value, conventionally 0" (R71). -/
def encode : Instr → Offer
  | .edgeF ts => .event (eventWord 0 ts)
  | .edgeR ts => .event (eventWord 1 ts)
  | .wdog => .event (eventWord 2 0)
  | .stop => .event (eventWord 3 0)
  | .reset => .rst
  | .off100 => .pulse (Pulse.encode ⟨.carrierOff, .w100⟩)
  | .off200 => .pulse (Pulse.encode ⟨.carrierOff, .w200⟩)
  | .off300 => .pulse (Pulse.encode ⟨.carrierOff, .w300⟩)
  | .off400 => .pulse (Pulse.encode ⟨.carrierOff, .w400⟩)
  | .off500 => .pulse (Pulse.encode ⟨.carrierOff, .w500⟩)
  | .off700 => .pulse (Pulse.encode ⟨.carrierOff, .w700⟩)
  | .off800 => .pulse (Pulse.encode ⟨.carrierOff, .w800⟩)
  | .off900 => .pulse (Pulse.encode ⟨.carrierOff, .w900⟩)
  | .on100 => .pulse (Pulse.encode ⟨.carrierOn, .w100⟩)
  | .on200 => .pulse (Pulse.encode ⟨.carrierOn, .w200⟩)
  | .on300 => .pulse (Pulse.encode ⟨.carrierOn, .w300⟩)
  | .on400 => .pulse (Pulse.encode ⟨.carrierOn, .w400⟩)
  | .on500 => .pulse (Pulse.encode ⟨.carrierOn, .w500⟩)
  | .on700 => .pulse (Pulse.encode ⟨.carrierOn, .w700⟩)
  | .on800 => .pulse (Pulse.encode ⟨.carrierOn, .w800⟩)
  | .on900 => .pulse (Pulse.encode ⟨.carrierOn, .w900⟩)

end Sys2Proof
end

