-- ==== Sys2Proof/Machine/State.lean ====
section
/-! DEFINITION. The state of the block (`10_state.md` R20), the records it is made of, why a step can stop, and the
state after reset (R41). -/

namespace Sys2Proof.Machine

/-- One frame buffer: the cells of one channel (R50), as a list of (index, value) with strictly rising indices, which
lists exactly the cells that hold a 1. An unlisted cell reads as 0 (log entry 3). The unit of storage of the spec is one
bit (R52); a cell is kept in a byte whose value is 0 or 1. -/
abbrev Memory := List Host.Cell

/-- The classifier result of a step, the field `OUT.cls` (R76). -/
inductive ClsResult where
  /-- Interval below `T_IGNORE`; also the value in a step that is not an EDGE step. -/
  | none
  /-- A classified pulse. -/
  | sym (w : Width)
  /-- The edge was swallowed by `skip`. -/
  | ignored
  /-- Seeding or wrap. -/
  | incomplete
  /-- An event while `run = 0`. -/
  | stopped
  /-- Out of tolerance. -/
  | unclassified
deriving DecidableEq, Repr

/-- The frame result of a minute close, `OUT.fr` and `FST.code` (R77). -/
inductive FrameResult where
  | noFrame
  | ok
  | discarded
  | length
  | marker
  | parity
deriving DecidableEq, Repr

/-- The frame status register `FST`: code and parity group (R32). -/
@[ext]
structure FrameStatus where
  code : FrameResult := .noFrame
  pg : BitVec 2 := 0
deriving DecidableEq, Repr

/-- The output record `OUT` of one step (R78); every field is 0 unless the step's rules set it. -/
@[ext]
structure OutRecord where
  cls : ClsResult := .none
  /-- The polarity of the classified pulse: false carrier-off, true carrier-on. -/
  pol : Bool := false
  /-- The once-per-second tick notification (R141). -/
  tick : Bool := false
  /-- The carrier-on pulse was unexpected (R138). -/
  unexp : Bool := false
  /-- The step called APPEND (R131). -/
  app : Bool := false
  pa : Bool := false
  pb : Bool := false
  fr : FrameResult := .noFrame
  pg : BitVec 2 := 0
  /-- A `WDOG` taken with `run = 1` (R191). -/
  wd : Bool := false
deriving DecidableEq, Repr

/-- The fields of the decoded-time register `DT`, with the widths of R79. -/
@[ext]
structure DecodedTime where
  year : BitVec 16
  month : BitVec 5
  day : BitVec 6
  weekday : BitVec 3
  hour : BitVec 6
  minute : BitVec 7
  /-- Tenths of a second, two's complement. -/
  dut1 : BitVec 5
  dstPending : Bool
  dstActive : Bool
deriving DecidableEq, Repr

/-- The failures of the block, the counterpart of exceptions (R200, R201). -/
inductive Failure where
  | unclassifiedPulse
  | unexpectedPulse
  | minuteDiscarded
  | lengthMismatch
  | markerNotFound
  | parityFailure (group : BitVec 2)
deriving DecidableEq, Repr

/-- What stands on the block's inputs when it takes a step: the word or pin offered, and the levels of the two
configuration inputs `POL` and `CENTURY` (R33, R34, R82). -/
structure Input where
  pol : Bool
  century : BitVec 8
  offer : Offer
deriving DecidableEq, Repr

/-- The whole state of the block (R20), the configuration inputs as last sampled, the output record of the last step,
and the events the environment has lined up. The last five fields are the model's own (log entries 1, 4, 5). -/
@[ext]
structure State where
  /-- Timestamp of the last recorded rising edge; 0 is "unset" (R21). -/
  tsRise : Timestamp
  /-- Timestamp of the last recorded falling edge; 0 is "unset" (R22). -/
  tsFall : Timestamp
  /-- The next edge is to be ignored (R23). -/
  skip : Bool
  /-- The last classified carrier-on pulse, `none` for code 0 (R24, log entry 9). -/
  wOn : Option Width
  /-- The last classified carrier-off pulse, `none` for code 0 (R25). -/
  wOff : Option Width
  /-- The number of bit pairs appended this minute, saturating at 61 (R26). -/
  n : BitVec 6
  /-- Channel A (R27). -/
  bufA : Memory
  /-- Channel B (R27). -/
  bufB : Memory
  /-- The bad-packet counter, saturating at 255 (R28). -/
  bad : BitVec 8
  /-- The block accepts events (R29). -/
  run : Bool
  /-- The result of the last minute close (R32). -/
  fst : FrameStatus
  /-- The last successfully decoded time, laid out by R79 (R35). -/
  dt : TimeWord
  /-- `DT` has been written since reset (R35). -/
  dtOk : Bool
  /-- The input `POL` as sampled with the last input taken: true when a rising edge is the carrier-on edge (R33). -/
  pol : Bool
  /-- The input `CENTURY` as sampled with the last input taken (R34). -/
  century : BitVec 8
  /-- The output record of the last step (R78); no rule reads it (R36). -/
  out : OutRecord
  /-- The strobe `out_valid`: the last model step was a step of the block, so `out` is its record (R82). -/
  outValid : Bool
  /-- The inputs the environment has lined up, first the next one (R13, R205). -/
  inbox : List Input
deriving DecidableEq, Repr

/-- Why the machine would stop with a fault. The spec gives the block none: "Nothing in the decoder is fatal" (R200). -/
inductive Fault where
  /-- Raised by the cell accessor `State.readCell` alone, for an index outside 0 to 59, which is no address of either
  channel (R50). No instruction reaches it: APPEND writes only below `BUF_CAP` and the validator reads only bits of
  the completed frame (R56, R65). Safe: it stops where the spec has no cell. -/
  | noSuchCell (index : Nat)
deriving DecidableEq, Repr

/-- Why a step has no meaning. -/
inductive Refusal where
  /-- Raised by `exec`'s arm of an instruction that has no meaning yet; every instruction of this model has one, so
  nothing raises it. Safe. -/
  | notModelled (mnemonic : String)
  /-- Raised by `step` for an offered dispatch word of a reserved code, which `PW` never carries (R83 (e)). Safe: the
  classifier never produces one. -/
  | notAnOperation (reject : DecodeReject)
  /-- Raised by `step` when `POL` changes while `run = 1` and a timestamp, a width or `n` is non-zero, without a
  `RESET`: "behaviour is unspecified" and the spec has the model refuse (R33, U6). Safe. -/
  | polarityChanged
  /-- Raised by the minute close whose frame passes every check while `CENTURY = 0`: "The value 0 is reserved: the
  model refuses it" (R34, U7). Safe. -/
  | centuryReserved
deriving DecidableEq, Repr

/-- The outcome of a step or of a meaning. -/
abbrev Result := Host.Outcome State Fault Refusal

/-- The block after `RESET` and at power-on (R20 column "reset", R41). The cells of `A` and `B` are unspecified there:
none is listed (log entry 3). `POL` and `CENTURY` are no registers and are not reset (R230): the levels here are
log entry 1's. The record is all-zero (R73), and the environment has lined up nothing. -/
def State.reset : State where
  tsRise := 0
  tsFall := 0
  skip := false
  wOn := none
  wOff := none
  n := 0
  bufA := []
  bufB := []
  bad := 0
  run := true
  fst := { code := .noFrame, pg := 0 }
  dt := 0
  dtOk := false
  pol := Config.resetPol
  century := Config.defaultCentury
  out := {}
  outValid := true
  inbox := []

end Sys2Proof.Machine
end

