-- ==== Sys2Proof/Machine/Params.lean ====
section
/-! DEFINITION. The implementation parameters of R6 as named constants, so that a corrected value can be substituted
(U1), and the field positions of a 59-pair frame (R80). -/

namespace Sys2Proof.Machine.Params

/-- `T_IGNORE`: an interval strictly below it is sub-threshold (R6, R106). -/
abbrev tIgnore : Nat := 50000

/-- `T_TOL`: tolerance either side of a nominal width, in microseconds (R6). -/
abbrev tTol : Nat := 35000

/-- `TOL_INCLUSIVE`: an interval exactly `T_TOL` from a nominal width is within tolerance (R6, R107). -/
abbrev tolInclusive : Bool := true

/-- `NOMINALS`: the nominal widths in the order they are tried (R6, R107). -/
abbrev nominals : List Width := [.w100, .w200, .w300, .w400, .w500, .w700, .w800, .w900]

/-- `ZERO_IS_UNSET`: the stored timestamp that means "unset" (R6, R21, R241). -/
abbrev unsetTs : Timestamp := 0

/-- `FRAME_LEN`: bit pairs in a valid minute (R6, R162). -/
abbrev frameLen : Nat := 59

/-- `N_MIN`: the least pair count handed to the validator (R6, R132). -/
abbrev nMin : Nat := 58

/-- `N_MAX`: the greatest pair count handed to the validator (R6, R132). -/
abbrev nMax : Nat := 60

/-- `BUF_CAP`: cells each frame buffer stores (R6, R27). -/
abbrev bufCap : Nat := 60

/-- `N_SAT`: the value at which the pair count saturates (R6, R26). -/
abbrev nSat : Nat := 61

/-- The value at which the bad-packet counter saturates (R6 `BAD_W`, R28). -/
abbrev badSat : Nat := 255

/-- `MARKER`: the minute-marker pattern, the last 8 bits of channel A (R6, R163). -/
abbrev marker : List Bool := [false, true, true, true, true, true, true, false]

/-! Channel A fields of a frame: first index and length (R80). Where month ends and day begins, and hour and minute, the
spec takes from general knowledge (G2, log entry 14). -/

abbrev markerLo : Nat := 51
abbrev markerLen : Nat := 8
abbrev yearLo : Nat := 16
abbrev yearLen : Nat := 8
abbrev monthDayLo : Nat := 24
abbrev monthDayLen : Nat := 11
abbrev monthLo : Nat := 24
abbrev monthLen : Nat := 5
abbrev dayLo : Nat := 29
abbrev dayLen : Nat := 6
abbrev weekdayLo : Nat := 35
abbrev weekdayLen : Nat := 3
abbrev hourMinuteLo : Nat := 38
abbrev hourMinuteLen : Nat := 13
abbrev hourLo : Nat := 38
abbrev hourLen : Nat := 6
abbrev minuteLo : Nat := 44
abbrev minuteLen : Nat := 7

/-! Channel B fields and flags of a frame (R80). -/

abbrev dutPlusLo : Nat := 0
abbrev dutMinusLo : Nat := 8
abbrev dutLen : Nat := 8
abbrev dstPendingAt : Nat := 52
abbrev yearFlagAt : Nat := 53
abbrev monthDayFlagAt : Nat := 54
abbrev weekdayFlagAt : Nat := 55
abbrev hourMinuteFlagAt : Nat := 56
abbrev dstActiveAt : Nat := 57

end Sys2Proof.Machine.Params
end

