-- ==== Sys2Proof/Machine/Operands.lean ====
section
/-! DEFINITION. Operands: the stored timestamp an edge is measured against, the interval, the polarity of the pulse an
edge ends (R81, R104, R109), widths in milliseconds (R74), and a list of bits as a number (R12, R52, R171). -/

namespace Sys2Proof

namespace Direction

/-- `opp(d)`: the other direction (R12). -/
def opp : Direction → Direction
  | .rising => .falling
  | .falling => .rising

end Direction

/-- The width in milliseconds, `100 * code` (R74). -/
def Width.ms (w : Width) : Nat := 100 * w.code.toNat

/-- What a width register holds, in milliseconds; a register with no pulse classified yet counts as 0 (R74, R138). -/
def widthMs : Option Width → Nat
  | none => 0
  | some w => w.ms

/-- The 4-bit contents of a width register: a symbol code, or 0 for none yet (R24, R25). -/
def widthCode : Option Width → BitVec 4
  | none => 0
  | some w => w.code

namespace Machine

/-- `ts[d]`: the stored timestamp of the last edge of direction `d` (R12). -/
def State.ts (s : State) : Direction → Timestamp
  | .rising => s.tsRise
  | .falling => s.tsFall

/-- The polarity of the pulse that an edge of direction `d` ends: carrier-off exactly when `d` is the carrier-on edge,
that is when `(d = R) = (POL = 1)` (R81, R109). -/
def pulsePolarity (pol : Bool) (d : Direction) : Polarity :=
  if decide (d = .rising) = pol then .carrierOff else .carrierOn

/-- The test of one window of R107, in microseconds, for either reading of the bound (U5). -/
def withinWindow (inclusive : Bool) (delta : Nat) (w : Width) : Bool :=
  let distance := ((delta : Int) - 1000 * (w.ms : Int)).natAbs
  if inclusive then decide (distance ≤ Params.tTol) else decide (distance < Params.tTol)

/-- Stage 6: the first nominal width whose window holds the interval (R107). -/
def classifyInterval (delta : Nat) : Option Width :=
  Params.nominals.find? (withinWindow Params.tolInclusive delta)

/-- `pack_msb(bits)`: the first bit is the most significant (R12, R52). -/
def packMsb (bits : List Bool) : Nat :=
  bits.foldl (fun v b => 2 * v + b.toNat) 0

/-- The nibble sum of R171 over the `k` lowest nibbles of `v`: nibble times ten to its position, no nibble checked
against 9. -/
def nibbleSum : Nat → Nat → Nat
  | 0, _ => 0
  | k + 1, v => v % 16 + 10 * nibbleSum k (v / 16)

/-- `bcd(bits)` (R171). A list of `L` bits has `ceil(L / 4)` nibbles. -/
def bcd (bits : List Bool) : Nat :=
  nibbleSum ((bits.length + 3) / 4) (packMsb bits)

/-- The list of `k` bits of a number, most significant first. -/
def bitsMsb : Nat → Nat → List Bool
  | 0, _ => []
  | k + 1, v => v.testBit k :: bitsMsb k v

/-- `enc(m, L)`: the BCD encode of R178, for lengths 1 to 8; none where it does not exist. -/
def bcdEncode (m len : Nat) : Option (List Bool) :=
  if len = 0 ∨ 8 < len then none
  else if len ≤ 4 then
    if m < 2 ^ len ∧ m ≤ 9 then some (bitsMsb len m) else none
  else
    if m / 10 < 2 ^ (len - 4) ∧ m / 10 ≤ 9 then some (bitsMsb len (m / 10 * 16 + m % 10)) else none

/-- `MemRead((ch, lo), len)` on the bits of a completed frame: index `lo` first (R12). -/
def slice (bits : List Bool) (lo len : Nat) : List Bool := (bits.drop lo).take len

/-- The single bit at index `i` of a completed frame. Every index the rules name lies inside a 59-pair frame (R56). -/
def bitAt (bits : List Bool) (i : Nat) : Bool := bits.getD i false

end Machine

end Sys2Proof
end

