-- ==== Sys2Proof/Machine/Flags.lean ====
section
/-! DEFINITION. The computations behind the block's flags and counters: saturation (R11), parity and bit counts (R11,
R164, R174), and the unexpected-pulse test (R138). The block has no condition codes (R31). -/

namespace Sys2Proof.Machine

/-- `sat_inc_8(v) = min(v + 1, 255)` (R11). -/
def satInc8 (v : BitVec 8) : BitVec 8 := BitVec.ofNat 8 (min (v.toNat + 1) Params.badSat)

/-- `sat_inc_n(v) = min(v + 1, 61)` (R11). -/
def satIncN (v : BitVec 6) : BitVec 6 := BitVec.ofNat 6 (min (v.toNat + 1) Params.nSat)

/-- `popcount(bits)`: the sum of the bits (R11). -/
def popcount (bits : List Bool) : Nat := (bits.map Bool.toNat).sum

/-- `par(bits)`: the sum of the bits modulo 2 (R11). -/
def par (bits : List Bool) : Nat := popcount bits % 2

/-- A parity check fails when the computed parity "equals the channel-B flag rather than differs from it" (R164). -/
def parityFails (field : List Bool) (flag : Bool) : Bool := decide (par field = flag.toNat)

/-- The unexpected-pulse test of a carrier-on pulse of width `w` after the carrier-off width register `wOff` (R138). -/
def unexpected (w : Width) (wOff : Option Width) : Bool :=
  (decide (w = .w700) && decide (wOff = some .w100)) || decide (w.ms + widthMs wOff ≠ 1000)

/-- `bad != 0`, the derived predicate of being "mid-bad-packet-run" (R31). -/
def State.midBadRun (s : State) : Bool := s.bad != 0

end Sys2Proof.Machine
end

