-- ==== Sys2Proof/Machine/Ops.lean ====
section
/-! DEFINITION. The named operations over the frame buffers, the registers and the output record. The counterpart of
taking an exception is `State.report`, one shared operation (R200, R201, R208): a failure records itself and transfers
control nowhere, so there is no return from one (R209). -/

namespace Sys2Proof.Machine

/-! ## The frame buffers -/

namespace Memory

/-- What a cell that is not listed reads as: log entry 3. No rule of the spec reads a cell that has not been written
(R27, R56). -/
def unlisted : Bool := false

/-- The bit in cell `i` of one channel. -/
def bit : Memory → Nat → Bool
  | [], _ => unlisted
  | (k, b) :: m, i => if k = i then b != 0 else bit m i

/-- `MemWrite((ch, i), 1, v)` on one channel: keeps the canonical form (R12). -/
def set : Memory → Nat → Bool → Memory
  | [], i, v => if v then [(i, 1)] else []
  | (k, b) :: m, i, v =>
    if k < i then (k, b) :: set m i v
    else if k = i then (if v then (i, 1) :: m else m)
    else if v then (i, 1) :: (k, b) :: m
    else (k, b) :: m

/-- Strictly rising indices from `lo` on, all below `BUF_CAP`, every listed cell holding a 1. -/
def wfFrom (lo : Nat) : Memory → Bool
  | [] => true
  | (k, b) :: m => decide (lo ≤ k) && decide (k < Params.bufCap) && decide (b = 1) && wfFrom (k + 1) m

/-- The canonical form of a buffer. -/
def wf (m : Memory) : Bool := wfFrom 0 m

end Memory

/-- The buffer of a channel (R50). -/
def State.buf (s : State) : Channel → Memory
  | .A => s.bufA
  | .B => s.bufB

/-- The cell at the address `(ch, i)`: indices 0 to 59 exist and no others (R50). -/
def State.readCell (s : State) (ch : Channel) (i : Nat) : Except Fault Bool :=
  if i < Params.bufCap then .ok ((s.buf ch).bit i) else .error (.noSuchCell i)

/-- The completed sequence of one channel, `A[0..n)` or `B[0..n)`, as it is handed to the validator (R132, R161): cells
at and above `n` are not in it (R56). -/
def State.channel (s : State) (ch : Channel) : List Bool :=
  (List.range (min s.n.toNat Params.bufCap)).map (s.buf ch).bit

/-! ## Steps and the output record -/

/-- "Every field is 0 at the start of every step" (R12, R36). -/
def State.beginStep (s : State) : State := { s with out := {}, outValid := true }

/-- `OUT.cls <- c` (R76). -/
def State.setCls (s : State) (c : ClsResult) : State := { s with out := { s.out with cls := c } }

/-- The start of a dispatched pulse's part of a step: `OUT.cls` and `OUT.pol` are the fields of its dispatch word
(R75, R110). -/
def State.beginPulse (s : State) (p : Pulse) : State :=
  { s with out := { cls := .sym p.width, pol := decide (p.pol = .carrierOn) }, outValid := true }

/-- `OUT.tick <- 1` (R141). -/
def State.raiseTick (s : State) : State := { s with out := { s.out with tick := true } }

/-- A step while `run = 0`: no state changes, and the record is all-zero but `OUT.cls = STOPPED` (R193). -/
def State.stoppedStep (s : State) : State := s.beginStep.setCls .stopped

/-! ## Registers -/

/-- `ts[d] <- t` (R12). -/
def State.setTs (s : State) (d : Direction) (t : Timestamp) : State :=
  match d with
  | .rising => { s with tsRise := t }
  | .falling => { s with tsFall := t }

/-- Both stored references to zero, "discarding the broken interval" (R103). -/
def State.clearTs (s : State) : State := { s with tsRise := Params.unsetTs, tsFall := Params.unsetTs }

/-- `skip <- v` (R101, R106). -/
def State.setSkip (s : State) (v : Bool) : State := { s with skip := v }

/-- `w_off <- W`, the tail of every carrier-off operation (R136). -/
def State.setWOff (s : State) (w : Width) : State := { s with wOff := some w }

/-- `w_on <- W`, the tail of every carrier-on operation (R139). -/
def State.setWOn (s : State) (w : Width) : State := { s with wOn := some w }

/-- `APPEND(a, b)` (R131): the pair is stored at `n` while there is room, `n` is incremented saturating at 61, and the
record shows the pair whether or not it was stored (R65, R78). -/
def State.append (s : State) (a b : Bool) : State :=
  { s with
    bufA := if s.n.toNat < Params.bufCap then s.bufA.set s.n.toNat a else s.bufA
    bufB := if s.n.toNat < Params.bufCap then s.bufB.set s.n.toNat b else s.bufB
    n := satIncN s.n
    out := { s.out with app := true, pa := a, pb := b } }

/-- `n <- 0; bad <- 0`: the buffers are now empty, their cells keep what they hold (R27, R132). -/
def State.emptyFrame (s : State) : State := { s with n := 0, bad := 0 }

/-- `OUT.fr <- code; OUT.pg <- pg; FST <- (code, pg)` (R132). -/
def State.recordFrame (s : State) (code : FrameResult) (pg : BitVec 2) : State :=
  { s with fst := { code := code, pg := pg }, out := { s.out with fr := code, pg := pg } }

/-- `bad <- sat_inc_8(bad)` (R28). -/
def State.countBad (s : State) : State := { s with bad := satInc8 s.bad }

/-! ## Failures -/

/-- `report <Failure>`: what each failure records (R12, R201). It changes nothing else, and the step goes on (R208). -/
def State.report (s : State) (f : Failure) : State :=
  match f with
  | .unclassifiedPulse => s.countBad.setCls .unclassified
  | .unexpectedPulse => { s.countBad with out := { s.out with unexp := true } }
  | .minuteDiscarded => s.recordFrame .discarded 0
  | .lengthMismatch => s.recordFrame .length 0
  | .markerNotFound => s.recordFrame .marker 0
  | .parityFailure g => s.recordFrame .parity g

/-- The tail of a carrier-on operation before `w_on` is written: the unexpected-pulse test, and the tick when the pulse
is not unexpected (R138, R141). -/
def State.crossCheck (s : State) (w : Width) : State :=
  if unexpected w s.wOff then s.report .unexpectedPulse else s.raiseTick

/-- The decoder part of the state back at its reset value, which `RESET` and `WDOG` share (R190, R191). -/
def State.clearDecoder (s : State) : State :=
  { s with tsRise := Params.unsetTs, tsFall := Params.unsetTs, skip := false, wOn := none, wOff := none, n := 0, bad := 0 }

/-- Goes on after a partial result, where there is one. -/
def andThen (r : Result) (f : State → State) : Result :=
  match r with
  | .next s => .next (f s)
  | .fault x => .fault x
  | .refused x => .refused x

end Sys2Proof.Machine
end

