-- ==== Sys2Proof/Machine/Validator.lean ====
section
/-! DEFINITION. The Frame Validator and BCD Decoder (`42_validator_decoder.md`), and the minute close that invokes them
(`41_assembler.md` R132). The validator reads the completed frame only, `A[0..n)` and `B[0..n)`: no cell at or above
`n` can reach it (R56, R161). -/

namespace Sys2Proof.Machine

/-- What the validator answers: the first failure, or that every check passed (R161). -/
inductive Verdict where
  | failed (f : Failure)
  | passed
deriving DecidableEq, Repr

/-- Check 2: "The last 8 bits of channel A must equal the fixed minute-marker pattern" (R163). -/
def markerHolds (a : List Bool) : Bool :=
  decide (slice a Params.markerLo Params.markerLen = Params.marker)

/-- The channel-A field of parity group `g` (R164). -/
def groupField (a : List Bool) (g : BitVec 2) : List Bool :=
  match g.toNat with
  | 0 => slice a Params.yearLo Params.yearLen
  | 1 => slice a Params.monthDayLo Params.monthDayLen
  | 2 => slice a Params.weekdayLo Params.weekdayLen
  | _ => slice a Params.hourMinuteLo Params.hourMinuteLen

/-- The channel-B flag of parity group `g` (R164). -/
def groupFlag (b : List Bool) (g : BitVec 2) : Bool :=
  match g.toNat with
  | 0 => bitAt b Params.yearFlagAt
  | 1 => bitAt b Params.monthDayFlagAt
  | 2 => bitAt b Params.weekdayFlagAt
  | _ => bitAt b Params.hourMinuteFlagAt

/-- Check 3 on one group: it fails when the field's parity equals the flag (R164). -/
def groupFails (a b : List Bool) (g : BitVec 2) : Bool :=
  parityFails (groupField a g) (groupFlag b g)

/-- The groups in the order they are tested (R164). -/
def parityGroups : List (BitVec 2) := [0, 1, 2, 3]

/-- `VALIDATE()`, its checks: length, marker, parity groups 0 to 3, in this order; the first that fails ends the
validation (R161). -/
def validate (a b : List Bool) : Verdict :=
  if a.length ≠ Params.frameLen then .failed .lengthMismatch
  else if markerHolds a = false then .failed .markerNotFound
  else
    match parityGroups.find? (groupFails a b) with
    | some g => .failed (.parityFailure g)
    | none => .passed

/-- `dut1`: the set bits of the first group less those of the second, in tenths of a second, as 5 bits two's
complement (R174). -/
def dut1 (b : List Bool) : BitVec 5 :=
  BitVec.ofInt 5
    ((popcount (slice b Params.dutPlusLo Params.dutLen) : Int)
      - (popcount (slice b Params.dutMinusLo Params.dutLen) : Int))

/-- `(CENTURY - 1) * 100 + bcd(A[16..24))` (R172). -/
def fullYear (century : BitVec 8) (a : List Bool) : Nat :=
  (century.toNat - 1) * 100 + bcd (slice a Params.yearLo Params.yearLen)

/-- `DECODE()` (R170 to R175). No digit and no field is checked for its range (R179). -/
def decodeTime (century : BitVec 8) (a b : List Bool) : DecodedTime where
  year := BitVec.ofNat 16 (fullYear century a)
  month := BitVec.ofNat 5 (bcd (slice a Params.monthLo Params.monthLen))
  day := BitVec.ofNat 6 (bcd (slice a Params.dayLo Params.dayLen))
  weekday := BitVec.ofNat 3 (bcd (slice a Params.weekdayLo Params.weekdayLen))
  hour := BitVec.ofNat 6 (bcd (slice a Params.hourLo Params.hourLen))
  minute := BitVec.ofNat 7 (bcd (slice a Params.minuteLo Params.minuteLen))
  dut1 := dut1 b
  dstPending := bitAt b Params.dstPendingAt
  dstActive := bitAt b Params.dstActiveAt

/-- The layout of the register `DT`: each field at its lowest bit (R79). -/
def packTime (t : DecodedTime) : TimeWord :=
  placeAt 50 34 t.year ||| placeAt 50 29 t.month ||| placeAt 50 23 t.day ||| placeAt 50 20 t.weekday
    ||| placeAt 50 14 t.hour ||| placeAt 50 7 t.minute ||| placeAt 50 2 t.dut1
    ||| placeAt 50 1 (BitVec.ofBool t.dstPending) ||| placeAt 50 0 (BitVec.ofBool t.dstActive)

/-- The fields of the register `DT`, by their bit positions (R79). -/
def unpackTime (w : TimeWord) : DecodedTime where
  year := w.extractLsb' 34 16
  month := w.extractLsb' 29 5
  day := w.extractLsb' 23 6
  weekday := w.extractLsb' 20 3
  hour := w.extractLsb' 14 6
  minute := w.extractLsb' 7 7
  dut1 := w.extractLsb' 2 5
  dstPending := w.getLsbD 1
  dstActive := w.getLsbD 0

/-- Success: all nine fields of `DT` together, `DT_OK <- 1`, and the frame result OK, which is the time-sync
notification (R176). -/
def State.deliverTime (s : State) (t : DecodedTime) : State :=
  { s with dt := packTime t, dtOk := true }.recordFrame .ok 0

/-- The completed frame in the validator's hands: `DT` is written when every check passes, and a frame that would need
the reserved `CENTURY = 0` is refused (R34, R161, U7, log entry 8). -/
def State.validateFrame (s : State) : Result :=
  match validate (s.channel .A) (s.channel .B) with
  | .failed f => .next (s.report f)
  | .passed =>
    if s.century = 0 then .refused .centuryReserved
    else .next (s.deliverTime (decodeTime s.century (s.channel .A) (s.channel .B)))

/-- The condition under which a closing minute is handed to the validator: `bad = 0` and `58 <= n <= 60` (R132). -/
def State.handsOver (s : State) : Bool :=
  !s.midBadRun && decide (Params.nMin ≤ s.n.toNat) && decide (s.n.toNat ≤ Params.nMax)

/-- CLOSE (R132): the frame result, then empty buffers and `bad = 0` "regardless of the prior minute's outcome". -/
def State.closeMinute (s : State) : Result :=
  andThen (if s.handsOver then s.validateFrame else .next (s.report .minuteDiscarded)) State.emptyFrame

end Sys2Proof.Machine
end

