-- ==== Sys2Proof/Machine/PulseOff.lean ====
section
/-! DEFINITION. The carrier-off operations of the Frame Assembler (`41_assembler.md` R132 to R137). Each begins with the
record's `cls` and `pol`, which are its dispatch word's fields, and ends with `w_off <- W` (R136). -/

namespace Sys2Proof.Machine

/-- `OFF.100` (R133): the pair (0,1) when both prior widths are 100 ms, the tri-transition; else nothing yet. -/
def execOff100 (s : State) : Result :=
  let s := s.beginPulse ⟨.carrierOff, .w100⟩
  let s := if s.wOn = some .w100 ∧ s.wOff = some .w100 then s.append false true else s
  .next (s.setWOff .w100)

/-- `OFF.200` (R134): the pair (1,0). -/
def execOff200 (s : State) : Result :=
  .next (((s.beginPulse ⟨.carrierOff, .w200⟩).append true false).setWOff .w200)

/-- `OFF.300` (R135): the pair (1,1). -/
def execOff300 (s : State) : Result :=
  .next (((s.beginPulse ⟨.carrierOff, .w300⟩).append true true).setWOff .w300)

/-- `OFF.400` (R137): only the width register. -/
def execOff400 (s : State) : Result :=
  .next ((s.beginPulse ⟨.carrierOff, .w400⟩).setWOff .w400)

/-- `OFF.500` (R132): the minute-marker pulse, which closes the minute. -/
def execOff500 (s : State) : Result :=
  andThen (s.beginPulse ⟨.carrierOff, .w500⟩).closeMinute (fun s => s.setWOff .w500)

/-- `OFF.700` (R137): only the width register. -/
def execOff700 (s : State) : Result :=
  .next ((s.beginPulse ⟨.carrierOff, .w700⟩).setWOff .w700)

/-- `OFF.800` (R137): only the width register. -/
def execOff800 (s : State) : Result :=
  .next ((s.beginPulse ⟨.carrierOff, .w800⟩).setWOff .w800)

/-- `OFF.900` (R137): only the width register. -/
def execOff900 (s : State) : Result :=
  .next ((s.beginPulse ⟨.carrierOff, .w900⟩).setWOff .w900)

end Sys2Proof.Machine
end

