-- ==== Sys2Proof/Machine/PulseOn.lean ====
section
/-! DEFINITION. The carrier-on operations of the Frame Assembler (`41_assembler.md` R138 to R144). Each runs the
unexpected-pulse test against `w_off`, raises the tick when the pulse is not unexpected, and ends with `w_on <- W`
(R139). -/

namespace Sys2Proof.Machine

/-- `ON.100` (R144). -/
def execOn100 (s : State) : Result :=
  .next (((s.beginPulse ⟨.carrierOn, .w100⟩).crossCheck .w100).setWOn .w100)

/-- `ON.200` (R144). -/
def execOn200 (s : State) : Result :=
  .next (((s.beginPulse ⟨.carrierOn, .w200⟩).crossCheck .w200).setWOn .w200)

/-- `ON.300` (R144). -/
def execOn300 (s : State) : Result :=
  .next (((s.beginPulse ⟨.carrierOn, .w300⟩).crossCheck .w300).setWOn .w300)

/-- `ON.400` (R144): always unexpected, there being no 600 ms symbol. -/
def execOn400 (s : State) : Result :=
  .next (((s.beginPulse ⟨.carrierOn, .w400⟩).crossCheck .w400).setWOn .w400)

/-- `ON.500` (R142): after the marker pulse, the second marker itself, which produces no bits. -/
def execOn500 (s : State) : Result :=
  .next (((s.beginPulse ⟨.carrierOn, .w500⟩).crossCheck .w500).setWOn .w500)

/-- `ON.700` (R143). -/
def execOn700 (s : State) : Result :=
  .next (((s.beginPulse ⟨.carrierOn, .w700⟩).crossCheck .w700).setWOn .w700)

/-- `ON.800` (R144). -/
def execOn800 (s : State) : Result :=
  .next (((s.beginPulse ⟨.carrierOn, .w800⟩).crossCheck .w800).setWOn .w800)

/-- `ON.900` (R140): after a 100 ms carrier-off pulse, the pair (0,0); APPEND is decided before the unexpected test. -/
def execOn900 (s : State) : Result :=
  let s := s.beginPulse ⟨.carrierOn, .w900⟩
  let s := if s.wOff = some .w100 then s.append false false else s
  .next ((s.crossCheck .w900).setWOn .w900)

end Sys2Proof.Machine
end

