-- ==== Sys2Proof/Machine/Classifier.lean ====
section
/-! DEFINITION. The Edge Timing Classifier and its two operations (`40_classifier.md`), with the dispatch of a classified
pulse to the assembler inside the same step (`41_assembler.md` R130). -/

namespace Sys2Proof.Machine

/-- What the classifier leaves: the step ends with it, or a classified pulse goes on to the assembler (R100). -/
inductive Classified where
  | ended (s : State)
  | symbol (p : Pulse) (s : State)
deriving DecidableEq, Repr

/-- Stages 4 to 7, for an edge of direction `d` at `t` with the opposite timestamp set and no stored timestamp above
`t`: the interval, its recording, the ignore threshold, the windows, no match (R104 to R109). -/
def measureInterval (d : Direction) (t : Timestamp) (s : State) : Classified :=
  let delta := (t - s.ts d.opp).toNat
  if delta < Params.tIgnore then .ended (((s.setTs d t).setSkip true).setCls .none)
  else
    match classifyInterval delta with
    | some w => .symbol ⟨pulsePolarity s.pol d, w⟩ (s.setTs d t)
    | none => .ended ((s.setTs d t).report .unclassifiedPulse)

/-- The stages in their fixed order (R100): skip (R101), seeding (R102), wrap (R103), then the measurement. -/
def classifier (d : Direction) (t : Timestamp) (s : State) : Classified :=
  if s.skip then .ended ((s.setSkip false).setCls .ignored)
  else if s.ts d.opp = Params.unsetTs then .ended ((s.setTs d t).setCls .incomplete)
  else if t < s.tsRise ∨ t < s.tsFall then .ended (s.clearTs.setCls .incomplete)
  else measureInterval d t s

/-- The dispatch of a classified pulse to one of the sixteen operations, "a pure function of `PW`" (R130). -/
def dispatchPulse (p : Pulse) (s : State) : Result :=
  match p with
  | ⟨.carrierOff, .w100⟩ => execOff100 s
  | ⟨.carrierOff, .w200⟩ => execOff200 s
  | ⟨.carrierOff, .w300⟩ => execOff300 s
  | ⟨.carrierOff, .w400⟩ => execOff400 s
  | ⟨.carrierOff, .w500⟩ => execOff500 s
  | ⟨.carrierOff, .w700⟩ => execOff700 s
  | ⟨.carrierOff, .w800⟩ => execOff800 s
  | ⟨.carrierOff, .w900⟩ => execOff900 s
  | ⟨.carrierOn, .w100⟩ => execOn100 s
  | ⟨.carrierOn, .w200⟩ => execOn200 s
  | ⟨.carrierOn, .w300⟩ => execOn300 s
  | ⟨.carrierOn, .w400⟩ => execOn400 s
  | ⟨.carrierOn, .w500⟩ => execOn500 s
  | ⟨.carrierOn, .w700⟩ => execOn700 s
  | ⟨.carrierOn, .w800⟩ => execOn800 s
  | ⟨.carrierOn, .w900⟩ => execOn900 s

/-- An edge step: dropped while stopped (R193), else the classifier and, for a width symbol, the assembler. -/
def edgeStep (d : Direction) (t : Timestamp) (s : State) : Result :=
  if s.run then
    match classifier d t s.beginStep with
    | .ended s => .next s
    | .symbol p s => dispatchPulse p s
  else .next s.stoppedStep

/-- `EDGE.R` (R110). -/
def execEdgeR (t : Timestamp) (s : State) : Result := edgeStep .rising t s

/-- `EDGE.F` (R111). -/
def execEdgeF (t : Timestamp) (s : State) : Result := edgeStep .falling t s

end Sys2Proof.Machine
end

