-- ==== Sys2Proof/Machine/Control.lean ====
section
/-! DEFINITION. The control events (`43_control_events.md` R190 to R193). -/

namespace Sys2Proof.Machine

/-- `RESET` (R190): accepted in every state, and the only way to set `run`. The cells of the buffers are not cleared,
and the configuration inputs are no registers and are not reset (R230). -/
def execReset (s : State) : Result :=
  .next { s.beginStep.clearDecoder with
    run := true
    fst := { code := .noFrame, pg := 0 }
    dt := 0
    dtOk := false }

/-- `WDOG` (R191): the decoder part of the state returns to its reset value; `run`, `FST`, `DT` and `DT_OK` stay, and
no frame result is produced. -/
def execWdog (s : State) : Result :=
  if s.run then .next { s.beginStep.clearDecoder with out := { wd := true } }
  else .next s.stoppedStep

/-- `STOP` (R192): `run <- 0` and nothing else; the record of the step is all zero. -/
def execStop (s : State) : Result :=
  if s.run then .next { s.beginStep with run := false }
  else .next s.stoppedStep

end Sys2Proof.Machine
end

