-- ==== Sys2Proof/Machine/Dispatch.lean ====
section
/-! DEFINITION. The meaning of every operation of `spec/opcode_table.json`, one arm each. -/

namespace Sys2Proof.Machine

def exec (i : Instr) (s : State) : Host.Outcome State Fault Refusal :=
  match i with
  | .edgeF ts => Sys2Proof.Machine.execEdgeF ts s
  | .edgeR ts => Sys2Proof.Machine.execEdgeR ts s
  | .wdog => Sys2Proof.Machine.execWdog s
  | .stop => Sys2Proof.Machine.execStop s
  | .reset => Sys2Proof.Machine.execReset s
  | .off100 => Sys2Proof.Machine.execOff100 s
  | .off200 => Sys2Proof.Machine.execOff200 s
  | .off300 => Sys2Proof.Machine.execOff300 s
  | .off400 => Sys2Proof.Machine.execOff400 s
  | .off500 => Sys2Proof.Machine.execOff500 s
  | .off700 => Sys2Proof.Machine.execOff700 s
  | .off800 => Sys2Proof.Machine.execOff800 s
  | .off900 => Sys2Proof.Machine.execOff900 s
  | .on100 => Sys2Proof.Machine.execOn100 s
  | .on200 => Sys2Proof.Machine.execOn200 s
  | .on300 => Sys2Proof.Machine.execOn300 s
  | .on400 => Sys2Proof.Machine.execOn400 s
  | .on500 => Sys2Proof.Machine.execOn500 s
  | .on700 => Sys2Proof.Machine.execOn700 s
  | .on800 => Sys2Proof.Machine.execOn800 s
  | .on900 => Sys2Proof.Machine.execOn900 s

end Sys2Proof.Machine
end

