-- ==== Sys2Proof/Machine/Input.lean ====
section
/-! DEFINITION. How an input is taken. The block has no program counter and no stored program (R30): what a step
executes is the event that arrives first (R41, R57). `State.inbox` holds what the environment has lined up, in
arrival order. -/

namespace Sys2Proof.Machine

/-- One of the registers R33 names is non-zero, so that `POL` must not change while `run = 1`. -/
def State.polarityHeld (s : State) : Bool :=
  s.run && (s.tsRise != 0 || s.tsFall != 0 || s.wOn != none || s.wOff != none || s.n != 0)

/-- The input would change `POL` where R33 forbids it: not with a `RESET`, which clears those registers (U6, log entry 2). -/
def State.polarityClash (s : State) (x : Input) : Bool :=
  s.polarityHeld && x.pol != s.pol && decide (x.offer ≠ .rst)

/-- The state in which the operation of an input runs: the input is consumed, and the configuration inputs are sampled
as they stand with it ("`CENTURY` ... is sampled at each successful decode", U8). -/
def State.takeInput (s : State) (x : Input) (rest : List Input) : State :=
  { s with pol := x.pol, century := x.century, inbox := rest }

/-- No event is offered: "between steps there is no activity" (R57); no record is produced. -/
def State.idle (s : State) : State := { s with outValid := false }

/-- The environment lines up one more input before all others, with the configuration inputs left as they are. -/
def State.offerNext (s : State) (o : Offer) : State :=
  { s with inbox := { pol := s.pol, century := s.century, offer := o } :: s.inbox }

end Sys2Proof.Machine
end

