-- ==== Sys2Proof/Machine/Step.lean ====
section
/-! DEFINITION. One step: the next input is taken, decoded and executed, atomically (R13, R57). -/

namespace Sys2Proof.Machine

/-- One step of the block. With no input lined up it idles (R57). -/
def step (s : State) : Host.Outcome State Fault Refusal :=
  match s.inbox with
  | [] => .next s.idle
  | x :: rest =>
    match decode x.offer with
    | .error e => .refused (.notAnOperation e)
    | .ok i => if s.polarityClash x then .refused .polarityChanged else exec i (s.takeInput x rest)

/-- The state in which `step` takes the opcode-table word `w` next: it is offered before all other inputs. A word with
bits above the width of its row is no word of the block and is not offered. -/
def State.withFetchWord (s : State) (nbits w : Nat) : State :=
  match tableOffer nbits w with
  | .ok o => s.offerNext o
  | .error _ => s

end Sys2Proof.Machine
end

