-- ==== Sys2Proof/Machine/Ports.lean ====
section
/-! DEFINITION. What an observer sees: the result codes (R76, R77), the output record as a word (R78), and the ports of
the block between two steps (R82). -/

namespace Sys2Proof.Machine

/-- The code of a classifier result in `OUT.cls` (R76). -/
def ClsResult.code : ClsResult → BitVec 4
  | .none => 0x0
  | .sym w => w.code
  | .ignored => 0xA
  | .incomplete => 0xB
  | .stopped => 0xD
  | .unclassified => 0xF

/-- The code of a frame result in `OUT.fr` and `FST.code` (R77). -/
def FrameResult.word : FrameResult → BitVec 3
  | .noFrame => 0
  | .ok => 1
  | .discarded => 2
  | .length => 3
  | .marker => 4
  | .parity => 5

/-- The output record as a word: each field at its lowest bit (R78). -/
def OutRecord.word (o : OutRecord) : OutWord :=
  placeAt 16 12 o.cls.code ||| placeAt 16 11 (BitVec.ofBool o.pol) ||| placeAt 16 10 (BitVec.ofBool o.tick)
    ||| placeAt 16 9 (BitVec.ofBool o.unexp) ||| placeAt 16 8 (BitVec.ofBool o.app)
    ||| placeAt 16 7 (BitVec.ofBool o.pa) ||| placeAt 16 6 (BitVec.ofBool o.pb) ||| placeAt 16 3 o.fr.word
    ||| placeAt 16 1 o.pg ||| placeAt 16 0 (BitVec.ofBool o.wd)

/-- The port `FST`, code above parity group (R82). -/
def FrameStatus.word (f : FrameStatus) : BitVec 5 := placeAt 5 2 f.code.word ||| placeAt 5 0 f.pg

/-- The outputs of R82, and the handshake of the event port. The clock, and how long a step holds `ev_ready` low, are
no part of the event-level model (R4 (6), R57, R252, log entry 11). What the handshake shows beside a reset and before
a dispatch word is log entry 15's. -/
structure Ports where
  evValid : Bool
  evReady : Bool
  outValid : Bool
  out : OutWord
  tick : Bool
  sync : Bool
  dt : TimeWord
  dtOk : Bool
  fst : BitVec 5
  n : BitVec 6
  bad : BitVec 8
deriving DecidableEq, Repr

/-- The environment asserts `rst` next: an event behind it is not accepted before it is released (R73, R194). -/
def State.rstNext (s : State) : Bool :=
  match s.inbox with
  | x :: _ => decide (x.offer = .rst)
  | [] => false

/-- `ev_valid`: "an event word is offered" (R82). DESIGN CHOICE (log entry 15), in two points the spec leaves open: an
event lined up behind a reset counts as offered while `rst` is asserted, the case of R194 in which `ev_ready = 0` holds
it off; and a dispatch word, the model's own offer (log entry 6), is no event word and hides the events behind it. -/
def eventOffered : List Input → Bool
  | [] => false
  | x :: rest =>
    match x.offer with
    | .event _ => true
    | .rst => eventOffered rest
    | .pulse _ => false

/-- The ports as they stand between two steps (R61, R82). -/
def State.ports (s : State) : Ports where
  evValid := eventOffered s.inbox
  evReady := !s.rstNext
  outValid := s.outValid
  out := s.out.word
  tick := s.outValid && s.out.tick
  sync := s.outValid && decide (s.out.fr = .ok)
  dt := s.dt
  dtOk := s.dtOk
  fst := s.fst.word
  n := s.n
  bad := s.bad

end Sys2Proof.Machine
end

