-- ==== Sys2Proof/Machine/Trace.lean ====
section
/-! DEFINITION. The trace notation, the block's "assembly language" (`30_encoding.md` R85, R86): one event a line, and
the pseudo-operations that expand to events with a cursor `T`. How the text is split into words is log entry 10's. -/

namespace Sys2Proof.Machine.Trace

/-- One line of a trace (R85). -/
inductive Line where
  /-- `R <t>` -/
  | rise (t : Timestamp)
  /-- `F <t>` -/
  | fall (t : Timestamp)
  | wdog
  | stop
  | reset
deriving DecidableEq, Repr

/-- What a line puts before the block: the word of R85's table, or the pin. -/
def Line.offer : Line → Offer
  | .rise t => .event (0x100000000#34 + t.setWidth 34)
  | .fall t => .event (0x000000000#34 + t.setWidth 34)
  | .wdog => .event 0x200000000#34
  | .stop => .event 0x300000000#34
  | .reset => .rst

/-- The pseudo-operations (R86). -/
inductive Pseudo where
  /-- `AT <t>` -/
  | setCursor (t : Nat)
  /-- `OFF <us>` -/
  | off (us : Nat)
  /-- `ON <us>` -/
  | on (us : Nat)
  | sec00
  | sec10
  | sec11
  | sec01
  | secM
deriving DecidableEq, Repr

/-- The pulses a pseudo-operation stands for: the polarity and the length in microseconds of each (R86). -/
def Pseudo.pulses : Pseudo → List (Polarity × Nat)
  | .setCursor _ => []
  | .off us => [(.carrierOff, us)]
  | .on us => [(.carrierOn, us)]
  | .sec00 => [(.carrierOff, 100000), (.carrierOn, 900000)]
  | .sec10 => [(.carrierOff, 200000), (.carrierOn, 800000)]
  | .sec11 => [(.carrierOff, 300000), (.carrierOn, 700000)]
  | .sec01 => [(.carrierOff, 100000), (.carrierOn, 100000), (.carrierOff, 100000), (.carrierOn, 700000)]
  | .secM => [(.carrierOff, 500000), (.carrierOn, 500000)]

/-- The direction of the edge that ends a pulse: with `POL = 1` a carrier-off pulse ends with a rising edge; "With
`POL = 0` exchange `R` and `F`" (R86). -/
def endingEdge (pol : Bool) : Polarity → Direction
  | .carrierOff => if pol then .rising else .falling
  | .carrierOn => if pol then .falling else .rising

/-- The line of an edge; none where the time is no timestamp, 0 to 2^32-1 (R85). -/
def edgeLine (d : Direction) (t : Nat) : Option Line :=
  if t < 2 ^ 32 then
    match d with
    | .rising => some (.rise (BitVec.ofNat 32 t))
    | .falling => some (.fall (BitVec.ofNat 32 t))
  else none

/-- Pulses as lines, from the cursor on, with the cursor after them. -/
def expandPulses (pol : Bool) : Nat → List (Polarity × Nat) → Option (List Line × Nat)
  | cursor, [] => some ([], cursor)
  | cursor, (p, us) :: rest =>
    match edgeLine (endingEdge pol p) (cursor + us), expandPulses pol (cursor + us) rest with
    | some line, some (lines, cursor') => some (line :: lines, cursor')
    | _, _ => none

/-- A pseudo-operation's lines and the cursor after it (R86). -/
def Pseudo.expand (pol : Bool) (cursor : Nat) : Pseudo → Option (List Line × Nat)
  | .setCursor t => some ([], t)
  | p => expandPulses pol cursor p.pulses

/-! ## The text of a line -/

/-- What a line of text says: an event, a pseudo-operation, or nothing. -/
inductive Item where
  | event (l : Line)
  | pseudo (p : Pseudo)
  /-- Nothing but a comment or blanks. -/
  | blank
deriving DecidableEq, Repr

/-- The value of a hexadecimal digit. -/
def digit (c : Char) : Option Nat :=
  if '0' ≤ c ∧ c ≤ '9' then some (c.toNat - '0'.toNat)
  else if 'a' ≤ c ∧ c ≤ 'f' then some (c.toNat - 'a'.toNat + 10)
  else if 'A' ≤ c ∧ c ≤ 'F' then some (c.toNat - 'A'.toNat + 10)
  else none

/-- Digits of a base, after a value read so far. -/
def digits (base : Nat) : Nat → List Char → Option Nat
  | v, [] => some v
  | v, c :: cs =>
    match digit c with
    | some x => if x < base then digits base (base * v + x) cs else none
    | none => none

/-- `<t>`: "a decimal or `0x` number" (R85). -/
def number : List Char → Option Nat
  | [] => none
  | ['0', 'x'] => none
  | '0' :: 'x' :: cs => digits 16 0 cs
  | cs => digits 10 0 cs

/-- A number that is a timestamp, 0 to 2^32-1 (R85). -/
def timestamp (cs : List Char) : Option Timestamp :=
  match number cs with
  | some t => if t < 2 ^ 32 then some (BitVec.ofNat 32 t) else none
  | none => none

/-- The words of a line: "A `#` starts a comment to the end of the line" (R85). The first argument is the word being
read, its characters in reverse. -/
def lineWords : List Char → List Char → List (List Char)
  | word, [] => if word = [] then [] else [word.reverse]
  | word, c :: cs =>
    if c = '#' then (if word = [] then [] else [word.reverse])
    else if c = ' ' ∨ c = '\t' then
      (if word = [] then lineWords [] cs else word.reverse :: lineWords [] cs)
    else lineWords (c :: word) cs

/-- A line of text (R85, R86); none where it is neither an event nor a pseudo-operation. The `<t>` of `AT` is taken as
the `<t>` of R85, so an `AT` of 2^32 or more is no line, and the `<us>` of `OFF` and `ON` is any number: DESIGN CHOICE,
log entry 10. -/
def readLine (text : List Char) : Option Item :=
  match lineWords [] text with
  | [] => some .blank
  | [w] =>
    if w = "WDOG".toList then some (.event .wdog)
    else if w = "STOP".toList then some (.event .stop)
    else if w = "RESET".toList then some (.event .reset)
    else if w = "SEC00".toList then some (.pseudo .sec00)
    else if w = "SEC10".toList then some (.pseudo .sec10)
    else if w = "SEC11".toList then some (.pseudo .sec11)
    else if w = "SEC01".toList then some (.pseudo .sec01)
    else if w = "SECM".toList then some (.pseudo .secM)
    else none
  | [w, v] =>
    if w = "R".toList then (timestamp v).map (fun t => .event (.rise t))
    else if w = "F".toList then (timestamp v).map (fun t => .event (.fall t))
    else if w = "AT".toList then (timestamp v).map (fun t => .pseudo (.setCursor t.toNat))
    else if w = "OFF".toList then (number v).map (fun t => .pseudo (.off t))
    else if w = "ON".toList then (number v).map (fun t => .pseudo (.on t))
    else none
  | _ => none

/-- The cursor after an event line: "the time of the last emitted edge" (R86). -/
def Line.cursor (l : Line) (cursor : Nat) : Nat :=
  match l with
  | .rise t => t.toNat
  | .fall t => t.toNat
  | _ => cursor

/-- A trace with its pseudo-operations expanded, from a cursor on; none where an edge falls outside the timestamps. -/
def expandItems (pol : Bool) : Nat → List Item → Option (List Line)
  | _, [] => some []
  | cursor, .blank :: rest => expandItems pol cursor rest
  | cursor, .event l :: rest => (expandItems pol (l.cursor cursor) rest).map (fun lines => l :: lines)
  | cursor, .pseudo p :: rest =>
    match p.expand pol cursor with
    | some (lines, cursor') => (expandItems pol cursor' rest).map (fun more => lines ++ more)
    | none => none

/-- A trace as the inputs of the block, with the configuration inputs held at one level each. -/
def inputs (pol : Bool) (century : BitVec 8) (lines : List Line) : List Input :=
  lines.map (fun l => { pol := pol, century := century, offer := l.offer })

end Sys2Proof.Machine.Trace
end

