-- ==== Sys2Proof/Safety.lean ====
section
/-! DEFINITION. The terms claims about the block use: the invariant of every reachable state (R40), what a run delivers
at the outputs, and the relations between two states that claims compare. -/

namespace Sys2Proof.Machine

/-- The edge operation of a direction. -/
def edge : Direction → Timestamp → Instr
  | .rising, t => .edgeR t
  | .falling, t => .edgeF t

/-- What holds of the decoded-time register: the ranges of R79 for every legal `CENTURY`. -/
structure TimeInRange (t : DecodedTime) : Prop where
  year : t.year.toNat ≤ 25565
  month : t.month.toNat ≤ 25
  day : t.day.toNat ≤ 45
  hour : t.hour.toNat ≤ 45
  minute : t.minute.toNat ≤ 85
  dut1_low : -8 ≤ t.dut1.toInt
  dut1_high : t.dut1.toInt ≤ 8

/-- The invariant of the block. -/
structure State.Inv (s : State) : Prop where
  /-- `n` is at most 61 (R40 (a)). -/
  n_le : s.n.toNat ≤ 61
  /-- The buffers are in canonical form. -/
  bufA_wf : s.bufA.wf = true
  bufB_wf : s.bufB.wf = true
  /-- After a minute close `n` and `bad` are 0, `w_off` is 500 (R40 (c)), and `FST` holds the result of that close
  (R32). -/
  closed : s.out.fr ≠ .noFrame →
    s.n = 0 ∧ s.bad = 0 ∧ s.wOff = some .w500 ∧ s.fst = { code := s.out.fr, pg := s.out.pg }
  /-- The parity group is 0 unless the code is PARITY (R32). -/
  fst_pg : s.fst.code ≠ .parity → s.fst.pg = 0
  /-- Never a tick and a time-sync in one step (R206). -/
  one_notification : s.out.tick = true → s.out.fr ≠ .ok
  /-- An unexpected pulse raises no tick (R141). -/
  no_unexpected_tick : s.out.tick = true → s.out.unexp = false
  /-- `DT` is 0 until it is first written (R35, R41). -/
  dt_unwritten : s.dtOk = false → s.dt = 0
  /-- A frame status OK means that `DT` has been written (R35, R176). -/
  dt_written : s.fst.code = .ok → s.dtOk = true
  /-- `DT` holds values in the ranges of R79. -/
  dt_range : TimeInRange (unpackTime s.dt)

/-- A step or a meaning completes: it answers a next state. -/
def Completes (r : Result) : Prop := ∃ t, r = .next t

/-- The cells of `t` are those of `s`, but for the pair `(a, b)` written at index `s.n` of the two channels while there
is room (R65, R131). -/
def CellsAppended (s t : State) (a b : Bool) : Prop :=
  ∀ ch i, t.readCell ch i =
    if s.n.toNat < 60 ∧ i = s.n.toNat then .ok (match ch with | .A => a | .B => b) else s.readCell ch i

/-- Every cell of both channels reads in `t` as in `s`. -/
def CellsKept (s t : State) : Prop := ∀ ch i, t.readCell ch i = s.readCell ch i

/-- A run of operations: the output records of its steps, and the state at its end where no step stopped. -/
def runOuts : List Instr → State → List OutRecord × Option State
  | [], s => ([], some s)
  | i :: is, s =>
    match exec i s with
    | .next t => (t.out :: (runOuts is t).1, (runOuts is t).2)
    | .fault _ => ([], none)
    | .refused _ => ([], none)

/-- The edges of a trace as operations. -/
def edges (es : List (Direction × Timestamp)) : List Instr := es.map (fun e => edge e.1 e.2)

/-- The differences between successive timestamps of a trace. -/
def gaps : List (Direction × Timestamp) → List Nat
  | e :: f :: rest => (f.2.toNat - e.2.toNat) :: gaps (f :: rest)
  | _ => []

/-- The provisos of R112: "no timestamp is 0, and no timestamp is smaller than an earlier one (no wrap)". -/
def Ascending (es : List (Direction × Timestamp)) : Prop :=
  (∀ e ∈ es, e.2 ≠ 0) ∧ es.Pairwise (fun e f => e.2 ≤ f.2)

/-- A stored timestamp in two states: unset in both, or set in both and later by `k` in the second. -/
def ShiftedTs (k : Nat) (a b : Timestamp) : Prop := (a = 0 ∧ b = 0) ∨ (a ≠ 0 ∧ b ≠ 0 ∧ b.toNat = a.toNat + k)

/-- Two states that differ at most in their stored timestamps, the second's later by `k`. -/
def ShiftedBy (k : Nat) (s t : State) : Prop :=
  t = { s with tsRise := t.tsRise, tsFall := t.tsFall } ∧ ShiftedTs k s.tsRise t.tsRise ∧ ShiftedTs k s.tsFall t.tsFall

/-- Two states that differ at most in cells at and above `n`, which "hold unspecified values that no rule reads" (R27). -/
def AgreeBelowN (s t : State) : Prop :=
  t = { s with bufA := t.bufA, bufB := t.bufB } ∧ ∀ ch i, i < s.n.toNat → s.readCell ch i = t.readCell ch i

/-- Two outcomes of one kind, with related next states or the same reason. -/
def SameOutcome (R : State → State → Prop) : Result → Result → Prop
  | .next s, .next t => R s t
  | .fault x, .fault y => x = y
  | .refused x, .refused y => x = y
  | _, _ => False

/-- The block seen with rising and falling exchanged: the two timestamps, and the level of `POL`. -/
def State.mirror (s : State) : State := { s with tsRise := s.tsFall, tsFall := s.tsRise, pol := !s.pol }

end Sys2Proof.Machine
end

