-- ==== Sys2Proof/Certificates/Slice0/Obligations.lean ====
section
/-! DEFINITION. The statements for the provers. Each docstring names the rule it formalises. -/

open Sys2Proof Sys2Proof.Machine

/-! ## Encodings -/

/-- Decode and encode agree on every operation, with every timestamp (R71, R72, R73, R75). -/
def Obligations.DecodeInvertsEncode : Prop :=
  ∀ i : Instr, decode (encode i) = .ok i

/-- Encode and decode agree on every word: an event word comes back whole but for the ignored `ts` of `WDOG` and `STOP`,
a dispatch word of a legal code comes back whole, and one of a reserved code is rejected by name (R71, R75, R83). -/
def Obligations.EncodeInvertsDecode : Prop :=
  (∀ w : EventWord, encode (decodeEvent w) = .event (if w.getLsbD 33 then w &&& 0x300000000#34 else w)) ∧
  (∀ w : PulseWord, wfPulseWord w = true → ∃ i, decode (.pulse w) = .ok i ∧ encode i = .pulse w) ∧
  (∀ w : PulseWord, wfPulseWord w = false → decode (.pulse w) = .error (.reservedPulseCode w))

/-- R72: the four event words by match and mask, and no event word is illegal. -/
def Obligations.EventWordsByMatchAndMask : Prop :=
  ∀ w : EventWord,
    (w &&& 0x300000000#34 = 0x000000000#34 → decode (.event w) = .ok (.edgeF (w.setWidth 32))) ∧
    (w &&& 0x300000000#34 = 0x100000000#34 → decode (.event w) = .ok (.edgeR (w.setWidth 32))) ∧
    (w &&& 0x300000000#34 = 0x200000000#34 → decode (.event w) = .ok .wdog) ∧
    (w &&& 0x300000000#34 = 0x300000000#34 → decode (.event w) = .ok .stop) ∧
    ∃ i, decode (.event w) = .ok i

/-- R75: the sixteen dispatch words of the table. -/
def Obligations.DispatchWordsOfTheTable : Prop :=
  decode (.pulse 0x01#5) = .ok .off100 ∧ decode (.pulse 0x02#5) = .ok .off200 ∧
  decode (.pulse 0x03#5) = .ok .off300 ∧ decode (.pulse 0x04#5) = .ok .off400 ∧
  decode (.pulse 0x05#5) = .ok .off500 ∧ decode (.pulse 0x07#5) = .ok .off700 ∧
  decode (.pulse 0x08#5) = .ok .off800 ∧ decode (.pulse 0x09#5) = .ok .off900 ∧
  decode (.pulse 0x11#5) = .ok .on100 ∧ decode (.pulse 0x12#5) = .ok .on200 ∧
  decode (.pulse 0x13#5) = .ok .on300 ∧ decode (.pulse 0x14#5) = .ok .on400 ∧
  decode (.pulse 0x15#5) = .ok .on500 ∧ decode (.pulse 0x17#5) = .ok .on700 ∧
  decode (.pulse 0x18#5) = .ok .on800 ∧ decode (.pulse 0x19#5) = .ok .on900

/-- R85: every event line of a trace is the word of the table, and decodes to its event. -/
def Obligations.TraceLinesDecode : Prop :=
  (∀ t : Timestamp,
    (Trace.Line.rise t).offer = encode (.edgeR t) ∧ decode (Trace.Line.rise t).offer = .ok (.edgeR t) ∧
    (Trace.Line.fall t).offer = encode (.edgeF t) ∧ decode (Trace.Line.fall t).offer = .ok (.edgeF t)) ∧
  Trace.Line.wdog.offer = .event 0x200000000#34 ∧ Trace.Line.stop.offer = .event 0x300000000#34 ∧
  Trace.Line.reset.offer = .rst ∧ decode Trace.Line.wdog.offer = .ok .wdog ∧ decode Trace.Line.stop.offer = .ok .stop ∧
  decode Trace.Line.reset.offer = .ok .reset

/-- R86: the five kinds of second as edges, with rising as the carrier-on edge, wherever the second fits. -/
def Obligations.SecondsExpandToEdges : Prop :=
  ∀ c : Nat, c + 1000000 < 2 ^ 32 →
    let r := fun us => Trace.Line.rise (BitVec.ofNat 32 (c + us))
    let f := fun us => Trace.Line.fall (BitVec.ofNat 32 (c + us))
    Trace.Pseudo.sec00.expand true c = some ([r 100000, f 1000000], c + 1000000) ∧
    Trace.Pseudo.sec10.expand true c = some ([r 200000, f 1000000], c + 1000000) ∧
    Trace.Pseudo.sec11.expand true c = some ([r 300000, f 1000000], c + 1000000) ∧
    Trace.Pseudo.sec01.expand true c = some ([r 100000, f 200000, r 300000, f 1000000], c + 1000000) ∧
    Trace.Pseudo.secM.expand true c = some ([r 500000, f 1000000], c + 1000000)

/-- R79: the fields of `DT` stand at the bits of the table, and a register value is its fields. -/
def Obligations.TimeRegisterLayout : Prop :=
  (∀ t : DecodedTime,
    (packTime t).extractLsb' 34 16 = t.year ∧ (packTime t).extractLsb' 29 5 = t.month ∧
    (packTime t).extractLsb' 23 6 = t.day ∧ (packTime t).extractLsb' 20 3 = t.weekday ∧
    (packTime t).extractLsb' 14 6 = t.hour ∧ (packTime t).extractLsb' 7 7 = t.minute ∧
    (packTime t).extractLsb' 2 5 = t.dut1 ∧ (packTime t).getLsbD 1 = t.dstPending ∧
    (packTime t).getLsbD 0 = t.dstActive) ∧
  (∀ w : TimeWord, packTime (unpackTime w) = w)

/-- R78: the fields of `OUT` stand at the bits of the table, with the codes of R76 in `cls` and those of R77 in `fr`. -/
def Obligations.OutputRecordLayout : Prop :=
  (∀ (o : OutRecord) (c : ClsResult) (v : BitVec 4),
    (c, v) ∈ [(ClsResult.none, 0x0#4), (.sym .w100, 0x1#4), (.sym .w200, 0x2#4), (.sym .w300, 0x3#4),
      (.sym .w400, 0x4#4), (.sym .w500, 0x5#4), (.sym .w700, 0x7#4), (.sym .w800, 0x8#4), (.sym .w900, 0x9#4),
      (.ignored, 0xA#4), (.incomplete, 0xB#4), (.stopped, 0xD#4), (.unclassified, 0xF#4)] →
    (o.cls = c ↔ o.word.extractLsb' 12 4 = v)) ∧
  (∀ (o : OutRecord) (r : FrameResult) (v : BitVec 3),
    (r, v) ∈ [(FrameResult.noFrame, 0#3), (.ok, 1#3), (.discarded, 2#3), (.length, 3#3), (.marker, 4#3), (.parity, 5#3)] →
    (o.fr = r ↔ o.word.extractLsb' 3 3 = v)) ∧
  ∀ o : OutRecord,
    o.word.extractLsb' 12 4 = o.cls.code ∧ o.word.getLsbD 11 = o.pol ∧ o.word.getLsbD 10 = o.tick ∧
    o.word.getLsbD 9 = o.unexp ∧ o.word.getLsbD 8 = o.app ∧ o.word.getLsbD 7 = o.pa ∧ o.word.getLsbD 6 = o.pb ∧
    o.word.extractLsb' 3 3 = o.fr.word ∧ o.word.extractLsb' 1 2 = o.pg ∧ o.word.getLsbD 0 = o.wd

/-! ## Steps -/

/-- A step runs the decoded operation: it consumes the input, samples the configuration inputs with it, and is `exec` of
what the decoder reads, unless the input changes `POL` where R33 forbids it. The list of inputs is the model's form of
the event sources (log entry 5), and when a change of `POL` is refused is log entry 2's. -/
def Obligations.StepRunsDecodedInput : Prop :=
  ∀ (s : State) (x : Input) (rest : List Input) (i : Instr),
    s.inbox = x :: rest → decode x.offer = .ok i →
    (x.pol = s.pol ∨ x.offer = .rst ∨ s.run = false ∨
      (s.tsRise = 0 ∧ s.tsFall = 0 ∧ s.wOn = none ∧ s.wOff = none ∧ s.n = 0)) →
    step s = exec i { s with pol := x.pol, century := x.century, inbox := rest }

/-- With nothing offered the block idles: only the strobe of the last record falls. This is the model's form (log entry
5) of "between steps there is no activity" (R57). -/
def Obligations.StepIdlesWithoutInput : Prop :=
  ∀ s : State, s.inbox = [] → step s = .next { s with outValid := false }

/-- The two inputs a step refuses, both the model's choices (log entries 6 and 2): a dispatch word of a reserved code
(R83 (e)), and a change of `POL` while `run = 1` and one of the registers of R33 is non-zero (U6). -/
def Obligations.StepRefusesWhatIsReserved : Prop :=
  ∀ (s : State) (x : Input) (rest : List Input), s.inbox = x :: rest →
    ((∀ w, x.offer = .pulse w → wfPulseWord w = false →
      step s = .refused (.notAnOperation (.reservedPulseCode w))) ∧
    ((∃ i, decode x.offer = .ok i) → x.offer ≠ .rst → s.run = true → x.pol ≠ s.pol →
      (s.tsRise ≠ 0 ∨ s.tsFall ≠ 0 ∨ s.wOn ≠ none ∨ s.wOff ≠ none ∨ s.n ≠ 0) →
      step s = .refused .polarityChanged))

/-- The record kept in `State` is the model's (log entry 4) and behaves as no state of the block (R36): what a step does,
and the record it makes, never depend on the record of the step before. -/
def Obligations.RecordIsAFunctionOfTheStep : Prop :=
  ∀ (i : Instr) (s : State) (o : OutRecord) (v : Bool), exec i { s with out := o, outValid := v } = exec i s

/-! ## Reset, invariant -/

/-- R41: the reset values the spec gives. -/
def Obligations.ResetValues : Prop :=
  State.reset.tsRise = 0 ∧ State.reset.tsFall = 0 ∧ State.reset.skip = false ∧ State.reset.wOn = none ∧
  State.reset.wOff = none ∧ State.reset.n = 0 ∧ State.reset.bad = 0 ∧ State.reset.run = true ∧
  State.reset.fst = { code := .noFrame, pg := 0 } ∧ State.reset.dt = 0 ∧ State.reset.dtOk = false

/-- The invariant of R40, which the spec derives from its rules, holds after reset, with the registers the model names
itself as log entries 1, 3 and 4 say. -/
def Obligations.ResetHasTheInvariant : Prop := State.reset.Inv

/-- Every step keeps the invariant of R40, which the spec derives from its rules: the bound on `n`, the canonical form of the buffers, what a minute close
leaves, the frame status, the notifications and the ranges of the decoded time. -/
def Obligations.StepKeepsTheInvariant : Prop :=
  ∀ s t : State, s.Inv → step s = .next t → t.Inv

/-! ## Control events -/

/-- R190: `RESET` is accepted in every state and installs the reset values; the cells of the buffers are not cleared. -/
def Obligations.ResetInstallsTheResetValues : Prop :=
  (∀ s : State, exec .reset s = .next { s with
    tsRise := 0, tsFall := 0, skip := false, wOn := none, wOff := none, n := 0, bad := 0, run := true,
    fst := { code := .noFrame, pg := 0 }, dt := 0, dtOk := false, out := {}, outValid := true }) ∧
  (∀ (i : Instr) (s t : State), exec i s = .next t → s.run = false → t.run = true → i = .reset)

/-- R191: `WDOG` returns the decoder part of the state to its reset value and keeps the results already delivered. -/
def Obligations.WatchdogClearsTheDecoder : Prop :=
  ∀ s : State,
    (s.run = true → exec .wdog s = .next { s with
      tsRise := 0, tsFall := 0, skip := false, wOn := none, wOff := none, n := 0, bad := 0,
      out := { wd := true }, outValid := true }) ∧
    (s.run = false → exec .wdog s = .next { s with out := { cls := .stopped }, outValid := true })

/-- R192: `STOP` clears `run` and nothing else, and its record is all zero. -/
def Obligations.StopClearsRun : Prop :=
  ∀ s : State,
    (s.run = true → exec .stop s = .next { s with run := false, out := {}, outValid := true }) ∧
    (s.run = false → exec .stop s = .next { s with out := { cls := .stopped }, outValid := true })

/-- R193: while `run = 0` every event is a step that changes no state and whose record is `0xD000`. -/
def Obligations.EventsWhileStoppedChangeNothing : Prop :=
  (∀ (s : State) (i : Instr), s.run = false → ((∃ d t, i = edge d t) ∨ i = .wdog ∨ i = .stop) →
    exec i s = .next { s with out := { cls := .stopped }, outValid := true }) ∧
  ({ cls := .stopped } : OutRecord).word = 0xD000#16

/-- R251: after `STOP` no minute completes and no notification is raised, however many events arrive; only `RESET`
goes on, and it clears `DT`. -/
def Obligations.StopIsFinalUntilReset : Prop :=
  ∀ s s1 : State, exec .stop s = .next s1 →
    (∀ is : List Instr, (∀ i ∈ is, (∃ d t, i = edge d t) ∨ i = .wdog ∨ i = .stop) →
      (runOuts is s1).1 = List.replicate is.length { cls := .stopped } ∧
      ∃ t, (runOuts is s1).2 = some t ∧ t = { s1 with out := t.out, outValid := t.outValid } ∧
        ∃ u, exec .reset t = .next u ∧ u.run = true ∧ u.dt = 0 ∧ u.dtOk = false)

/-! ## The classifier -/

/-- R101: with the skip mark set an edge clears the mark and does nothing else. -/
def Obligations.SkippedEdgeIsIgnored : Prop :=
  ∀ (s : State) (d : Direction) (t : Timestamp), s.run = true → s.skip = true →
    exec (edge d t) s = .next { s with skip := false, out := { cls := .ignored }, outValid := true }

/-- R102: with the opposite timestamp unset an edge records its own and the result is incomplete; after reset the first
edge takes this stage, and the second too if it has the same direction. -/
def Obligations.FirstEdgeSeeds : Prop :=
  (∀ (s : State) (t : Timestamp), s.run = true → s.skip = false →
    (s.tsFall = 0 →
      exec (.edgeR t) s = .next { s with tsRise := t, out := { cls := .incomplete }, outValid := true }) ∧
    (s.tsRise = 0 →
      exec (.edgeF t) s = .next { s with tsFall := t, out := { cls := .incomplete }, outValid := true })) ∧
  (∀ (d : Direction) (t u : Timestamp), ∃ s1 s2, exec (edge d t) State.reset = .next s1 ∧
    s1.out = { cls := .incomplete } ∧ exec (edge d u) s1 = .next s2 ∧ s2.out = { cls := .incomplete })

/-- R103: an edge earlier than either stored timestamp clears both and records nothing. -/
def Obligations.EarlierEdgeIsAWrap : Prop :=
  ∀ (s : State) (d : Direction) (t : Timestamp), s.run = true → s.skip = false → s.ts d.opp ≠ 0 →
    (t.toNat < s.tsRise.toNat ∨ t.toNat < s.tsFall.toNat) →
    exec (edge d t) s =
      .next { s with tsRise := 0, tsFall := 0, out := { cls := .incomplete }, outValid := true }

/-- R106 (with the interval of R104 and the recording of R105): an interval below 50,000 us marks the next edge to be
skipped and touches neither `bad` nor the widths. -/
def Obligations.ShortIntervalSetsTheSkipMark : Prop :=
  ∀ (s : State) (t : Timestamp), s.run = true → s.skip = false →
    s.tsRise.toNat ≤ t.toNat → s.tsFall.toNat ≤ t.toNat →
    (s.tsFall ≠ 0 → t.toNat - s.tsFall.toNat < 50000 →
      exec (.edgeR t) s = .next { s with tsRise := t, skip := true, out := {}, outValid := true }) ∧
    (s.tsRise ≠ 0 → t.toNat - s.tsRise.toNat < 50000 →
      exec (.edgeF t) s = .next { s with tsFall := t, skip := true, out := {}, outValid := true })

/-- R107: the eight windows of the table, and nothing else is classified. -/
def Obligations.ClassificationWindows : Prop :=
  ∀ delta : Nat,
    (classifyInterval delta = some .w100 ↔ 65000 ≤ delta ∧ delta ≤ 135000) ∧
    (classifyInterval delta = some .w200 ↔ 165000 ≤ delta ∧ delta ≤ 235000) ∧
    (classifyInterval delta = some .w300 ↔ 265000 ≤ delta ∧ delta ≤ 335000) ∧
    (classifyInterval delta = some .w400 ↔ 365000 ≤ delta ∧ delta ≤ 435000) ∧
    (classifyInterval delta = some .w500 ↔ 465000 ≤ delta ∧ delta ≤ 535000) ∧
    (classifyInterval delta = some .w700 ↔ 665000 ≤ delta ∧ delta ≤ 735000) ∧
    (classifyInterval delta = some .w800 ↔ 765000 ≤ delta ∧ delta ≤ 835000) ∧
    (classifyInterval delta = some .w900 ↔ 865000 ≤ delta ∧ delta ≤ 935000)

/-- The windows are disjoint for either reading of the tolerance bound (`TOL_INCLUSIVE`, U5), so the order in which the
nominal widths are tried does not matter. -/
def Obligations.WindowsAreDisjoint : Prop :=
  ∀ (inclusive : Bool) (delta : Nat) (v w : Width),
    withinWindow inclusive delta v = true → withinWindow inclusive delta w = true → v = w

/-- R108: an interval in none of the windows and not below the threshold counts a bad packet; nothing else changes but
the recorded timestamp, and the assembler is not invoked. -/
def Obligations.UnclassifiedIntervalCountsABadPacket : Prop :=
  ∀ (s : State) (d : Direction) (t : Timestamp) (delta : Nat), s.run = true → s.skip = false → s.ts d.opp ≠ 0 →
    s.tsRise.toNat ≤ t.toNat → s.tsFall.toNat ≤ t.toNat → delta = t.toNat - (s.ts d.opp).toNat →
    (50000 ≤ delta ∧ delta ≤ 64999 ∨ 135001 ≤ delta ∧ delta ≤ 164999 ∨ 235001 ≤ delta ∧ delta ≤ 264999 ∨
      335001 ≤ delta ∧ delta ≤ 364999 ∨ 435001 ≤ delta ∧ delta ≤ 464999 ∨ 535001 ≤ delta ∧ delta ≤ 664999 ∨
      735001 ≤ delta ∧ delta ≤ 764999 ∨ 835001 ≤ delta ∧ delta ≤ 864999 ∨ 935001 ≤ delta) →
    exec (edge d t) s = .next { s.setTs d t with
      bad := BitVec.ofNat 8 (min (s.bad.toNat + 1) 255), out := { cls := .unclassified }, outValid := true }

/-- An edge whose interval lies in a window is, in the same step, the operation of the pulse it ends, run on the state
with the edge's timestamp recorded; the pulse is carrier-off exactly when the edge is the carrier-on edge (R105, R109,
R130). -/
def Obligations.ClassifiedEdgeRunsItsPulse : Prop :=
  ∀ (s : State) (t : Timestamp) (w : Width), s.run = true → s.skip = false →
    s.tsRise.toNat ≤ t.toNat → s.tsFall.toNat ≤ t.toNat →
    (s.tsFall ≠ 0 → 1000 * w.ms ≤ t.toNat - s.tsFall.toNat + 35000 → t.toNat - s.tsFall.toNat ≤ 1000 * w.ms + 35000 →
      exec (.edgeR t) s =
        exec (Pulse.instr ⟨if s.pol = true then .carrierOff else .carrierOn, w⟩) { s with tsRise := t }) ∧
    (s.tsRise ≠ 0 → 1000 * w.ms ≤ t.toNat - s.tsRise.toNat + 35000 → t.toNat - s.tsRise.toNat ≤ 1000 * w.ms + 35000 →
      exec (.edgeF t) s =
        exec (Pulse.instr ⟨if s.pol = true then .carrierOn else .carrierOff, w⟩) { s with tsFall := t })

/-- Where an edge measures a pulse of a nominal width it completes, for every legal `CENTURY`, with the width and the
polarity in the record and the timestamp recorded; `skip`, `run` and the configuration inputs stay (R105, R107, R109). -/
def Obligations.ClassifiedEdgeCompletes : Prop :=
  ∀ (s : State) (d : Direction) (t : Timestamp) (w : Width), s.run = true → s.skip = false → s.ts d.opp ≠ 0 →
    s.tsRise.toNat ≤ t.toNat → s.tsFall.toNat ≤ t.toNat →
    1000 * w.ms ≤ t.toNat - (s.ts d.opp).toNat + 35000 → t.toNat - (s.ts d.opp).toNat ≤ 1000 * w.ms + 35000 →
    s.century ≠ 0 →
    ∃ u, exec (edge d t) s = .next u ∧ u.out.cls = .sym w ∧
      (u.out.pol = false ↔ ((d = .rising) ↔ s.pol = true)) ∧
      u.ts d = t ∧ u.ts d.opp = s.ts d.opp ∧ u.skip = false ∧ u.run = true ∧ u.pol = s.pol ∧
      u.century = s.century ∧ u.outValid = true ∧ u.inbox = s.inbox

/-- R111: `EDGE.F` is `EDGE.R` with the two timestamps exchanged and the polarity reversed. -/
def Obligations.FallingEdgeMirrorsRisingEdge : Prop :=
  ∀ (s : State) (t : Timestamp), exec (.edgeF t) s.mirror = andThen (exec (.edgeR t) s) State.mirror

/-- R241: an edge whose timestamp is 0 never measures an interval, and leaves the register of its direction unset. -/
def Obligations.TimestampZeroStaysUnset : Prop :=
  ∀ (s : State) (d : Direction), s.run = true → s.skip = false →
    ∃ u, exec (edge d 0) s = .next u ∧ u.out = { cls := .incomplete } ∧ u.ts d = 0

/-- R112: from the reset state, whatever the levels of the configuration inputs, two traces with the same directions and
the same differences between successive timestamps give the same records, where no timestamp is 0 and none is smaller
than an earlier one. The spec derives the rule from R102, R103 and R104. -/
def Obligations.TranslationInvariance : Prop :=
  ∀ (es fs : List (Direction × Timestamp)) (p : Bool) (c : BitVec 8),
    Ascending es → Ascending fs → es.map Prod.fst = fs.map Prod.fst → gaps es = gaps fs →
    (runOuts (edges es) { State.reset with pol := p, century := c }).1 =
      (runOuts (edges fs) { State.reset with pol := p, century := c }).1

/-! ## The assembler: carrier-off pulses -/

/-- R133 (with the tail of R136): the tri-transition appends (0,1); any other 100 ms carrier-off pulse appends nothing. -/
def Obligations.Off100AppendsOnTheTriTransition : Prop :=
  ∀ s : State, s.bufA.wf = true → s.bufB.wf = true →
    ∃ t, exec .off100 s = .next t ∧
      (s.wOn = some .w100 ∧ s.wOff = some .w100 →
        t = { s with
          bufA := t.bufA, bufB := t.bufB, n := BitVec.ofNat 6 (min (s.n.toNat + 1) 61), wOff := some .w100,
          out := { cls := .sym .w100, app := true, pa := false, pb := true }, outValid := true } ∧
        CellsAppended s t false true) ∧
      (¬ (s.wOn = some .w100 ∧ s.wOff = some .w100) →
        t = { s with wOff := some .w100, out := { cls := .sym .w100 }, outValid := true } ∧ CellsKept s t)

/-- R134 (with R131 and R136): a 200 ms carrier-off pulse appends (1,0). -/
def Obligations.Off200AppendsOneZero : Prop :=
  ∀ s : State, s.bufA.wf = true → s.bufB.wf = true →
    ∃ t, exec .off200 s = .next t ∧
      t = { s with
        bufA := t.bufA, bufB := t.bufB, n := BitVec.ofNat 6 (min (s.n.toNat + 1) 61), wOff := some .w200,
        out := { cls := .sym .w200, app := true, pa := true, pb := false }, outValid := true } ∧
      CellsAppended s t true false

/-- R135 (with R131 and R136): a 300 ms carrier-off pulse appends (1,1). -/
def Obligations.Off300AppendsOneOne : Prop :=
  ∀ s : State, s.bufA.wf = true → s.bufB.wf = true →
    ∃ t, exec .off300 s = .next t ∧
      t = { s with
        bufA := t.bufA, bufB := t.bufB, n := BitVec.ofNat 6 (min (s.n.toNat + 1) 61), wOff := some .w300,
        out := { cls := .sym .w300, app := true, pa := true, pb := true }, outValid := true } ∧
      CellsAppended s t true true

/-- R137: a carrier-off pulse of 400, 700, 800 or 900 ms writes its width and nothing else, and the carrier-on pulse
after it is unexpected but for 700 + 300, 800 + 200 and 900 + 100. -/
def Obligations.OtherOffPulsesOnlyStoreTheirWidth : Prop :=
  ∀ (s : State) (i : Instr) (w : Width),
    (i, w) ∈ [(Instr.off400, Width.w400), (.off700, .w700), (.off800, .w800), (.off900, .w900)] →
    ∃ t, exec i s = .next t ∧
      t = { s with wOff := some w, out := { cls := .sym w }, outValid := true } ∧ CellsKept s t ∧
      ∀ x : Width, ∃ u, exec (Pulse.instr ⟨.carrierOn, x⟩) t = .next u ∧
        (u.out.unexp = false ↔ (w, x) ∈ [(Width.w700, Width.w300), (.w800, .w200), (.w900, .w100)])

/-- R132: the marker pulse closes the minute. With `bad = 0` and 58 to 60 pairs the frame goes to the validator, else it is
discarded; either way the buffers and `bad` are empty and zero and `w_off` is 500, and nothing else is touched. The one
form left out is a frame that passes while `CENTURY` has its reserved value 0: `OnlyTheReservedCenturyIsRefused`. -/
def Obligations.MarkerPulseClosesTheMinute : Prop :=
  ∀ s : State, (s.century = 0 → ¬ (s.bad = 0 ∧ validate (s.channel .A) (s.channel .B) = .passed)) →
    ∃ (t : State) (code : FrameResult) (pg : BitVec 2), exec .off500 s = .next t ∧
      t = { s with
        n := 0, bad := 0, wOff := some .w500, fst := { code := code, pg := pg }, dt := t.dt, dtOk := t.dtOk,
        out := { cls := .sym .w500, fr := code, pg := pg }, outValid := true } ∧ CellsKept s t ∧
      (¬ (s.bad = 0 ∧ 58 ≤ s.n.toNat ∧ s.n.toNat ≤ 60) →
        code = .discarded ∧ pg = 0 ∧ t.dt = s.dt ∧ t.dtOk = s.dtOk) ∧
      (s.bad = 0 ∧ 58 ≤ s.n.toNat ∧ s.n.toNat ≤ 60 →
        (validate (s.channel .A) (s.channel .B) = .passed → code = .ok ∧ pg = 0 ∧ t.dtOk = true ∧
          t.dt = packTime (decodeTime s.century (s.channel .A) (s.channel .B))) ∧
        (validate (s.channel .A) (s.channel .B) ≠ .passed → t.dt = s.dt ∧ t.dtOk = s.dtOk) ∧
        (validate (s.channel .A) (s.channel .B) = .failed .lengthMismatch → code = .length ∧ pg = 0) ∧
        (validate (s.channel .A) (s.channel .B) = .failed .markerNotFound → code = .marker ∧ pg = 0) ∧
        (∀ g, validate (s.channel .A) (s.channel .B) = .failed (.parityFailure g) → code = .parity ∧ pg = g))

/-! ## The assembler: carrier-on pulses -/

/-- R138: the pairs that are not unexpected are exactly the seven that make a second of 1000 ms. -/
def Obligations.ExpectedPairsMakeASecond : Prop :=
  ∀ (w : Width) (wOff : Option Width),
    unexpected w wOff = false ↔
      (wOff, w) ∈ [(some Width.w100, Width.w900), (some .w200, .w800), (some .w300, .w700), (some .w500, .w500),
        (some .w700, .w300), (some .w800, .w200), (some .w900, .w100)]

/-- R140: `ON.900` after a 100 ms carrier-off pulse appends (0,0) and raises the tick; after any other it is unexpected. -/
def Obligations.On900CompletesAZeroSecond : Prop :=
  ∀ s : State, s.bufA.wf = true → s.bufB.wf = true →
    ∃ t, exec .on900 s = .next t ∧
      (s.wOff = some .w100 →
        t = { s with
          bufA := t.bufA, bufB := t.bufB, n := BitVec.ofNat 6 (min (s.n.toNat + 1) 61), wOn := some .w900,
          out := { cls := .sym .w900, pol := true, tick := true, app := true, pa := false, pb := false },
          outValid := true } ∧
        CellsAppended s t false false) ∧
      (s.wOff ≠ some .w100 →
        t = { s with
          bad := BitVec.ofNat 8 (min (s.bad.toNat + 1) 255), wOn := some .w900,
          out := { cls := .sym .w900, pol := true, unexp := true }, outValid := true } ∧ CellsKept s t)

/-- R142: `ON.500` is the second marker exactly after the marker pulse, and never appends. -/
def Obligations.On500IsTheSecondMarker : Prop :=
  ∀ s : State, ∃ t, exec .on500 s = .next t ∧ CellsKept s t ∧
    (s.wOff = some .w500 → t = { s with
      wOn := some .w500, out := { cls := .sym .w500, pol := true, tick := true }, outValid := true }) ∧
    (s.wOff ≠ some .w500 → t = { s with
      bad := BitVec.ofNat 8 (min (s.bad.toNat + 1) 255), wOn := some .w500,
      out := { cls := .sym .w500, pol := true, unexp := true }, outValid := true })

/-- R143: `ON.700` is expected exactly after a 300 ms carrier-off pulse, and never appends. -/
def Obligations.On700FollowsOff300 : Prop :=
  ∀ s : State, ∃ t, exec .on700 s = .next t ∧ CellsKept s t ∧
    (s.wOff = some .w300 → t = { s with
      wOn := some .w700, out := { cls := .sym .w700, pol := true, tick := true }, outValid := true }) ∧
    (s.wOff ≠ some .w300 → t = { s with
      bad := BitVec.ofNat 8 (min (s.bad.toNat + 1) 255), wOn := some .w700,
      out := { cls := .sym .w700, pol := true, unexp := true }, outValid := true })

/-- R144: `ON.100`, `ON.200`, `ON.300` and `ON.800` are expected after `OFF.900`, `OFF.800`, `OFF.700` and `OFF.200` alone,
`ON.400` never; none appends. -/
def Obligations.OtherOnPulsesCrossCheckTheSecond : Prop :=
  ∀ (s : State) (i : Instr) (w : Width) (v : Option Width),
    (i, w, v) ∈ [(Instr.on100, Width.w100, some Width.w900), (.on200, .w200, some .w800), (.on300, .w300, some .w700),
      (.on400, .w400, none), (.on800, .w800, some .w200)] →
    ∃ t, exec i s = .next t ∧ CellsKept s t ∧
      (v ≠ none ∧ s.wOff = v → t = { s with
        wOn := some w, out := { cls := .sym w, pol := true, tick := true }, outValid := true }) ∧
      (v = none ∨ s.wOff ≠ v → t = { s with
        bad := BitVec.ofNat 8 (min (s.bad.toNat + 1) 255), wOn := some w,
        out := { cls := .sym w, pol := true, unexp := true }, outValid := true })

/-- R146: what each kind of second gives when it follows an undisturbed second (so that the last carrier-on pulse was not
100 ms): the pair appended, what `bad` counts, and the tick; the (0,1) second is appended and still makes the minute
bad. The spec derives the table from R132 to R145. -/
def Obligations.KindsOfSecond : Prop :=
  ∀ s : State, s.bufA.wf = true → s.bufB.wf = true → s.wOn ≠ some .w100 → s.century ≠ 0 →
    (∃ t o, runOuts [.off100, .on900] s = (o, some t) ∧ CellsAppended s t false false ∧
      t.n.toNat = min (s.n.toNat + 1) 61 ∧ t.bad = s.bad ∧ o.map OutRecord.tick = [false, true]) ∧
    (∃ t o, runOuts [.off200, .on800] s = (o, some t) ∧ CellsAppended s t true false ∧
      t.n.toNat = min (s.n.toNat + 1) 61 ∧ t.bad = s.bad ∧ o.map OutRecord.tick = [false, true]) ∧
    (∃ t o, runOuts [.off300, .on700] s = (o, some t) ∧ CellsAppended s t true true ∧
      t.n.toNat = min (s.n.toNat + 1) 61 ∧ t.bad = s.bad ∧ o.map OutRecord.tick = [false, true]) ∧
    (∃ t o, runOuts [.off100, .on100, .off100, .on700] s = (o, some t) ∧ CellsAppended s t false true ∧
      t.n.toNat = min (s.n.toNat + 1) 61 ∧ t.bad.toNat = min (s.bad.toNat + 2) 255 ∧
      o.map OutRecord.tick = [false, false, false, false]) ∧
    (∃ t o, runOuts [.off500, .on500] s = (o, some t) ∧ CellsKept s t ∧ t.n = 0 ∧ t.bad = 0 ∧
      o.map OutRecord.tick = [false, true])

/-- R65: a further APPEND at 60 pairs stores nothing and counts to 61, at 61 it changes neither, and a minute of 61 pairs
ends discarded. -/
def Obligations.AppendAtCapacity : Prop :=
  (∀ (s : State) (a b : Bool), (s.n = 60 ∨ s.n = 61) →
    s.append a b = { s with n := 61, out := { s.out with app := true, pa := a, pb := b } } ∧
    CellsKept s (s.append a b)) ∧
  (∀ s : State, s.n = 61 → ∃ t, exec .off500 s = .next t ∧ t.out.fr = .discarded)

/-! ## The validator and decoder -/

/-- R161 to R164: length, marker, then the four parity groups, each failing when the parity of its field equals its flag;
the first check that fails is the result. -/
def Obligations.ValidatorReportsTheFirstFailure : Prop :=
  ∀ a b : List Bool,
    let marker := slice a 51 8 = [false, true, true, true, true, true, true, false]
    let year := par (slice a 16 8) = (bitAt b 53).toNat
    let monthDay := par (slice a 24 11) = (bitAt b 54).toNat
    let weekday := par (slice a 35 3) = (bitAt b 55).toNat
    let hourMinute := par (slice a 38 13) = (bitAt b 56).toNat
    (a.length ≠ 59 → validate a b = .failed .lengthMismatch) ∧
    (a.length = 59 ∧ ¬ marker → validate a b = .failed .markerNotFound) ∧
    (a.length = 59 ∧ marker ∧ year → validate a b = .failed (.parityFailure 0)) ∧
    (a.length = 59 ∧ marker ∧ ¬ year ∧ monthDay → validate a b = .failed (.parityFailure 1)) ∧
    (a.length = 59 ∧ marker ∧ ¬ year ∧ ¬ monthDay ∧ weekday → validate a b = .failed (.parityFailure 2)) ∧
    (a.length = 59 ∧ marker ∧ ¬ year ∧ ¬ monthDay ∧ ¬ weekday ∧ hourMinute →
      validate a b = .failed (.parityFailure 3)) ∧
    (a.length = 59 ∧ marker ∧ ¬ year ∧ ¬ monthDay ∧ ¬ weekday ∧ ¬ hourMinute → validate a b = .passed)

/-- R172 to R176: a frame that passes every check is delivered in the step of its marker pulse. The fields of `DT` are the
BCD values of their slices as numbers, no field is cut, and the time-sync is raised. Where month ends and day begins, and
hour and minute, the spec marks as general knowledge (R173, G2, log entry 14). -/
def Obligations.ValidFrameIsDecodedExactly : Prop :=
  ∀ s : State, s.century ≠ 0 → s.bad = 0 →
    validate (s.channel .A) (s.channel .B) = .passed →
    ∃ t, exec .off500 s = .next t ∧
      (unpackTime t.dt).year.toNat = (s.century.toNat - 1) * 100 + bcd (slice (s.channel .A) 16 8) ∧
      (unpackTime t.dt).month.toNat = bcd (slice (s.channel .A) 24 5) ∧
      (unpackTime t.dt).day.toNat = bcd (slice (s.channel .A) 29 6) ∧
      (unpackTime t.dt).weekday.toNat = bcd (slice (s.channel .A) 35 3) ∧
      (unpackTime t.dt).hour.toNat = bcd (slice (s.channel .A) 38 6) ∧
      (unpackTime t.dt).minute.toNat = bcd (slice (s.channel .A) 44 7) ∧
      (unpackTime t.dt).dut1.toInt =
        (popcount (slice (s.channel .B) 0 8) : Int) - (popcount (slice (s.channel .B) 8 8) : Int) ∧
      (unpackTime t.dt).dstPending = bitAt (s.channel .B) 52 ∧
      (unpackTime t.dt).dstActive = bitAt (s.channel .B) 57 ∧
      t.dtOk = true ∧ t.out.fr = .ok ∧ t.fst = { code := .ok, pg := 0 } ∧ t.ports.sync = true

/-- The spec has the model refuse the reserved `CENTURY = 0` (R34, U7), and when it does so is log entry 8's: a frame
that passes every check is refused then. In no other case does an operation stop: what is refused is `OFF.500`, or an
edge that runs it, on such a frame, and nothing faults. -/
def Obligations.OnlyTheReservedCenturyIsRefused : Prop :=
  (∀ s : State, s.century = 0 → s.bad = 0 → validate (s.channel .A) (s.channel .B) = .passed →
    exec .off500 s = .refused .centuryReserved) ∧
  (∀ (i : Instr) (s : State) (r : Refusal), exec i s = .refused r →
    r = .centuryReserved ∧ s.century = 0 ∧ s.bad = 0 ∧ validate (s.channel .A) (s.channel .B) = .passed ∧
      (i = .off500 ∨ ∃ d x, i = edge d x ∧ exec .off500 (s.setTs d x) = exec i s)) ∧
  (∀ (i : Instr) (s : State) (f : Fault), exec i s ≠ .fault f)

/-- R171: `bcd` is the sum of the nibbles of the packed slice, each times ten to its position, and the packed slice is the
number whose binary digits are the bits, the first most significant. -/
def Obligations.BcdIsTheNibbleSum : Prop :=
  ∀ bits : List Bool,
    bcd bits = ((List.range bits.length).map (fun k => packMsb bits / 16 ^ k % 16 * 10 ^ k)).sum ∧
    packMsb bits = ((List.range bits.length).map
      (fun i => (bits.getD i false).toNat * 2 ^ (bits.length - 1 - i))).sum

/-- R178, which the spec derives from R171: decoding an encoded number gives it back; an encoding of length 1 to 8 exists exactly for numbers whose digits
fit; and the converse fails for a nibble above 9. -/
def Obligations.BcdRoundTrip : Prop :=
  (∀ (m len : Nat) (bits : List Bool), bcdEncode m len = some bits →
    bits.length = len ∧ packMsb bits = m / 10 * 16 + m % 10 ∧ bcd bits = m) ∧
  (∀ m len : Nat, 1 ≤ len → len ≤ 4 → ((bcdEncode m len).isSome = true ↔ m < 2 ^ len ∧ m ≤ 9)) ∧
  (∀ m len : Nat, 5 ≤ len → len ≤ 8 →
    ((bcdEncode m len).isSome = true ↔ m / 10 < 2 ^ (len - 4) ∧ m / 10 ≤ 9)) ∧
  (∀ bits : List Bool, 1 ≤ bits.length → bits.length ≤ 8 → packMsb bits % 16 ≤ 9 → packMsb bits / 16 ≤ 9 →
    bcdEncode (bcd bits) bits.length = some bits) ∧
  bcd [true, false, true, false] = 10 ∧ bcdEncode 10 4 = none

/-! ## Rules of the whole machine -/

/-- R200: nothing in the decoder is fatal: no operation ever faults, and for every legal `CENTURY` every operation
completes in every state. -/
def Obligations.NothingIsFatal : Prop :=
  (∀ (i : Instr) (s : State) (f : Fault), exec i s ≠ .fault f) ∧
  (∀ (i : Instr) (s : State), s.century ≠ 0 → ∃ t, exec i s = .next t)

/-- R141: the tick is raised exactly in a step that dispatches a carrier-on pulse that is not unexpected. -/
def Obligations.TickExactlyOnExpectedCarrierOn : Prop :=
  ∀ (i : Instr) (s t : State), exec i s = .next t →
    (t.out.tick = true ↔ ∃ w, t.out.cls = .sym w ∧ t.out.pol = true ∧ unexpected w s.wOff = false)

/-- R24 and R25: a width register is written with the width of the pulse of its polarity, cleared by `WDOG` and
`RESET`, and left alone by every other result. -/
def Obligations.WidthRegistersHoldTheLastPulse : Prop :=
  ∀ (i : Instr) (s t : State), exec i s = .next t →
    (i = .reset ∨ i = .wdog ∧ s.run = true → t.wOn = none ∧ t.wOff = none) ∧
    (∀ w, t.out.cls = .sym w → t.out.pol = true → t.wOn = some w ∧ t.wOff = s.wOff) ∧
    (∀ w, t.out.cls = .sym w → t.out.pol = false → t.wOff = some w ∧ t.wOn = s.wOn) ∧
    ((∀ w, t.out.cls ≠ .sym w) → ¬ (i = .reset ∨ i = .wdog ∧ s.run = true) → t.wOn = s.wOn ∧ t.wOff = s.wOff)

/-- R26: `n` counts one per APPEND, saturating at 61, is set to 0 by a minute close, `WDOG` and `RESET`, and is left
alone otherwise. -/
def Obligations.PairCountRule : Prop :=
  ∀ (i : Instr) (s t : State), exec i s = .next t →
    (t.out.app = true → t.n = BitVec.ofNat 6 (min (s.n.toNat + 1) 61)) ∧
    (t.out.fr ≠ .noFrame ∨ i = .reset ∨ i = .wdog ∧ s.run = true → t.n = 0) ∧
    (t.out.app = false → ¬ (t.out.fr ≠ .noFrame ∨ i = .reset ∨ i = .wdog ∧ s.run = true) → t.n = s.n)

/-- R28: `bad` counts unclassified and unexpected pulses, saturating at 255, is set to 0 by a minute close, `WDOG` and
`RESET`, and is left alone otherwise. -/
def Obligations.BadPacketCountRule : Prop :=
  ∀ (i : Instr) (s t : State), exec i s = .next t →
    (t.out.cls = .unclassified ∨ t.out.unexp = true → t.bad = BitVec.ofNat 8 (min (s.bad.toNat + 1) 255)) ∧
    (t.out.fr ≠ .noFrame ∨ i = .reset ∨ i = .wdog ∧ s.run = true → t.bad = 0) ∧
    (t.out.cls ≠ .unclassified → t.out.unexp = false →
      ¬ (t.out.fr ≠ .noFrame ∨ i = .reset ∨ i = .wdog ∧ s.run = true) → t.bad = s.bad)

/-- R32 and R35: `FST` is written by every minute close with its result and by `RESET`, and `DT` and `DT_OK` by a
successful close and by `RESET`; nothing else writes them. -/
def Obligations.ResultRegistersKeepTheLastResult : Prop :=
  ∀ (i : Instr) (s t : State), exec i s = .next t →
    (i = .reset → t.fst = { code := .noFrame, pg := 0 } ∧ t.dt = 0 ∧ t.dtOk = false) ∧
    (t.out.fr ≠ .noFrame → t.fst = { code := t.out.fr, pg := t.out.pg } ∧ (t.out.fr ≠ .parity → t.out.pg = 0)) ∧
    (t.out.fr = .parity → validate (s.channel .A) (s.channel .B) = .failed (.parityFailure t.out.pg)) ∧
    (t.out.fr = .noFrame → i ≠ .reset → t.fst = s.fst) ∧
    (t.out.fr = .ok → validate (s.channel .A) (s.channel .B) = .passed ∧ t.dtOk = true ∧
      t.dt = packTime (decodeTime s.century (s.channel .A) (s.channel .B))) ∧
    (t.out.fr ≠ .ok → i ≠ .reset → t.dt = s.dt ∧ t.dtOk = s.dtOk)

/-- R207, which the spec derives from the pseudocode: no step reports more than one failure, and a notification comes with none and alone. -/
def Obligations.AtMostOneReportInAStep : Prop :=
  ∀ (i : Instr) (s t : State), exec i s = .next t →
    (t.out.cls = .unclassified → t.out = { cls := .unclassified }) ∧
    (t.out.unexp = true → t.out.tick = false ∧ t.out.app = false ∧ t.out.fr = .noFrame) ∧
    (t.out.fr ≠ .noFrame → t.out.cls = .sym .w500 ∧ t.out.pol = false ∧ t.out.tick = false ∧ t.out.app = false) ∧
    (t.out.wd = true → t.out = { wd := true })

/-- R246: one bad packet costs the minute: until a marker pulse, `WDOG` or `RESET`, `bad` stays non-zero; the marker pulse
then reports DISCARDED, and no time is delivered. -/
def Obligations.OneErrorCostsTheMinute : Prop :=
  ∀ (i : Instr) (s t : State), s.bad ≠ 0 → exec i s = .next t →
    (t.out.fr = .noFrame ∨ t.out.fr = .discarded) ∧
    (t.bad ≠ 0 ∨ t.out.fr = .discarded ∨ i = .wdog ∨ i = .reset) ∧
    (i ≠ .reset → t.dt = s.dt ∧ t.dtOk = s.dtOk)

/-- R27 and R56: cells at and above `n` are read by no rule, so that what the model chose for them (log entry 3) cannot
matter: two states in canonical form that differ in such cells alone
step alike, and still differ in such cells alone. -/
def Obligations.CellsAboveNAreNeverRead : Prop :=
  ∀ s t : State, s.bufA.wf = true → s.bufB.wf = true → t.bufA.wf = true → t.bufB.wf = true →
    AgreeBelowN s t → SameOutcome AgreeBelowN (step s) (step t)

/-- R82: the strobes at the ports are those of the record of the step just finished, and `DT`, `DT_OK`, `FST`, `n` and
`bad` are the registers, `FST` with the codes of R77 above the parity group. -/
def Obligations.PortsShowTheLastRecord : Prop :=
  ∀ s : State,
    s.ports.tick = (s.outValid && s.out.tick) ∧ s.ports.sync = (s.outValid && decide (s.out.fr = .ok)) ∧
    s.ports.out = s.out.word ∧ s.ports.dt = s.dt ∧ s.ports.dtOk = s.dtOk ∧ s.ports.n = s.n ∧ s.ports.bad = s.bad ∧
    s.ports.fst.extractLsb' 0 2 = s.fst.pg ∧
    ∀ (r : FrameResult) (v : BitVec 3),
      (r, v) ∈ [(FrameResult.noFrame, 0#3), (.ok, 1#3), (.discarded, 2#3), (.length, 3#3), (.marker, 4#3),
        (.parity, 5#3)] →
      (s.fst.code = r ↔ s.ports.fst.extractLsb' 2 3 = v)

/-- The step lemma behind R112, wraps included: on two states whose stored timestamps are unset in both or apart by one
offset and which are otherwise equal, edges of one direction whose timestamps, not 0, are apart by that offset give
outcomes of one kind that keep the relation, so that their records are equal; and so does every other operation. The
spec derives the rule from R102, R103 and R104. -/
def Obligations.EqualOffsetsStepAlike : Prop :=
  ∀ (k : Nat) (s t : State), ShiftedBy k s t →
    (∀ (d : Direction) (x y : Timestamp), x ≠ 0 → y.toNat = x.toNat + k →
      SameOutcome (ShiftedBy k) (exec (edge d x) s) (exec (edge d y) t)) ∧
    (∀ i : Instr, (∀ d x, i ≠ edge d x) → SameOutcome (ShiftedBy k) (exec i s) (exec i t))
end

