-- ==== Sys2Proof/Laws/State.lean ====
section
/-! SUPPORT. The small lemmas of the state: one per field per update, so that no later proof unfolds a record update. -/

namespace Sys2Proof.Machine

/-! ### `State.beginStep` -/

@[simp] theorem State.beginStep_tsRise (s : State) : s.beginStep.tsRise = s.tsRise := rfl
@[simp] theorem State.beginStep_tsFall (s : State) : s.beginStep.tsFall = s.tsFall := rfl
@[simp] theorem State.beginStep_skip (s : State) : s.beginStep.skip = s.skip := rfl
@[simp] theorem State.beginStep_wOn (s : State) : s.beginStep.wOn = s.wOn := rfl
@[simp] theorem State.beginStep_wOff (s : State) : s.beginStep.wOff = s.wOff := rfl
@[simp] theorem State.beginStep_n (s : State) : s.beginStep.n = s.n := rfl
@[simp] theorem State.beginStep_bufA (s : State) : s.beginStep.bufA = s.bufA := rfl
@[simp] theorem State.beginStep_bufB (s : State) : s.beginStep.bufB = s.bufB := rfl
@[simp] theorem State.beginStep_bad (s : State) : s.beginStep.bad = s.bad := rfl
@[simp] theorem State.beginStep_run (s : State) : s.beginStep.run = s.run := rfl
@[simp] theorem State.beginStep_fst (s : State) : s.beginStep.fst = s.fst := rfl
@[simp] theorem State.beginStep_dt (s : State) : s.beginStep.dt = s.dt := rfl
@[simp] theorem State.beginStep_dtOk (s : State) : s.beginStep.dtOk = s.dtOk := rfl
@[simp] theorem State.beginStep_pol (s : State) : s.beginStep.pol = s.pol := rfl
@[simp] theorem State.beginStep_century (s : State) : s.beginStep.century = s.century := rfl
@[simp] theorem State.beginStep_out (s : State) : s.beginStep.out = {} := rfl
@[simp] theorem State.beginStep_outValid (s : State) : s.beginStep.outValid = true := rfl
@[simp] theorem State.beginStep_inbox (s : State) : s.beginStep.inbox = s.inbox := rfl

/-! ### `State.setCls` -/

@[simp] theorem State.setCls_tsRise (s : State) (c : ClsResult) : (s.setCls c).tsRise = s.tsRise := rfl
@[simp] theorem State.setCls_tsFall (s : State) (c : ClsResult) : (s.setCls c).tsFall = s.tsFall := rfl
@[simp] theorem State.setCls_skip (s : State) (c : ClsResult) : (s.setCls c).skip = s.skip := rfl
@[simp] theorem State.setCls_wOn (s : State) (c : ClsResult) : (s.setCls c).wOn = s.wOn := rfl
@[simp] theorem State.setCls_wOff (s : State) (c : ClsResult) : (s.setCls c).wOff = s.wOff := rfl
@[simp] theorem State.setCls_n (s : State) (c : ClsResult) : (s.setCls c).n = s.n := rfl
@[simp] theorem State.setCls_bufA (s : State) (c : ClsResult) : (s.setCls c).bufA = s.bufA := rfl
@[simp] theorem State.setCls_bufB (s : State) (c : ClsResult) : (s.setCls c).bufB = s.bufB := rfl
@[simp] theorem State.setCls_bad (s : State) (c : ClsResult) : (s.setCls c).bad = s.bad := rfl
@[simp] theorem State.setCls_run (s : State) (c : ClsResult) : (s.setCls c).run = s.run := rfl
@[simp] theorem State.setCls_fst (s : State) (c : ClsResult) : (s.setCls c).fst = s.fst := rfl
@[simp] theorem State.setCls_dt (s : State) (c : ClsResult) : (s.setCls c).dt = s.dt := rfl
@[simp] theorem State.setCls_dtOk (s : State) (c : ClsResult) : (s.setCls c).dtOk = s.dtOk := rfl
@[simp] theorem State.setCls_pol (s : State) (c : ClsResult) : (s.setCls c).pol = s.pol := rfl
@[simp] theorem State.setCls_century (s : State) (c : ClsResult) : (s.setCls c).century = s.century := rfl
@[simp] theorem State.setCls_out (s : State) (c : ClsResult) : (s.setCls c).out = { s.out with cls := c } := rfl
@[simp] theorem State.setCls_outValid (s : State) (c : ClsResult) : (s.setCls c).outValid = s.outValid := rfl
@[simp] theorem State.setCls_inbox (s : State) (c : ClsResult) : (s.setCls c).inbox = s.inbox := rfl

/-! ### `State.beginPulse` -/

@[simp] theorem State.beginPulse_tsRise (s : State) (p : Pulse) : (s.beginPulse p).tsRise = s.tsRise := rfl
@[simp] theorem State.beginPulse_tsFall (s : State) (p : Pulse) : (s.beginPulse p).tsFall = s.tsFall := rfl
@[simp] theorem State.beginPulse_skip (s : State) (p : Pulse) : (s.beginPulse p).skip = s.skip := rfl
@[simp] theorem State.beginPulse_wOn (s : State) (p : Pulse) : (s.beginPulse p).wOn = s.wOn := rfl
@[simp] theorem State.beginPulse_wOff (s : State) (p : Pulse) : (s.beginPulse p).wOff = s.wOff := rfl
@[simp] theorem State.beginPulse_n (s : State) (p : Pulse) : (s.beginPulse p).n = s.n := rfl
@[simp] theorem State.beginPulse_bufA (s : State) (p : Pulse) : (s.beginPulse p).bufA = s.bufA := rfl
@[simp] theorem State.beginPulse_bufB (s : State) (p : Pulse) : (s.beginPulse p).bufB = s.bufB := rfl
@[simp] theorem State.beginPulse_bad (s : State) (p : Pulse) : (s.beginPulse p).bad = s.bad := rfl
@[simp] theorem State.beginPulse_run (s : State) (p : Pulse) : (s.beginPulse p).run = s.run := rfl
@[simp] theorem State.beginPulse_fst (s : State) (p : Pulse) : (s.beginPulse p).fst = s.fst := rfl
@[simp] theorem State.beginPulse_dt (s : State) (p : Pulse) : (s.beginPulse p).dt = s.dt := rfl
@[simp] theorem State.beginPulse_dtOk (s : State) (p : Pulse) : (s.beginPulse p).dtOk = s.dtOk := rfl
@[simp] theorem State.beginPulse_pol (s : State) (p : Pulse) : (s.beginPulse p).pol = s.pol := rfl
@[simp] theorem State.beginPulse_century (s : State) (p : Pulse) : (s.beginPulse p).century = s.century := rfl
@[simp] theorem State.beginPulse_out (s : State) (p : Pulse) : (s.beginPulse p).out = { cls := .sym p.width, pol := decide (p.pol = .carrierOn) } := rfl
@[simp] theorem State.beginPulse_outValid (s : State) (p : Pulse) : (s.beginPulse p).outValid = true := rfl
@[simp] theorem State.beginPulse_inbox (s : State) (p : Pulse) : (s.beginPulse p).inbox = s.inbox := rfl

/-! ### `State.raiseTick` -/

@[simp] theorem State.raiseTick_tsRise (s : State) : s.raiseTick.tsRise = s.tsRise := rfl
@[simp] theorem State.raiseTick_tsFall (s : State) : s.raiseTick.tsFall = s.tsFall := rfl
@[simp] theorem State.raiseTick_skip (s : State) : s.raiseTick.skip = s.skip := rfl
@[simp] theorem State.raiseTick_wOn (s : State) : s.raiseTick.wOn = s.wOn := rfl
@[simp] theorem State.raiseTick_wOff (s : State) : s.raiseTick.wOff = s.wOff := rfl
@[simp] theorem State.raiseTick_n (s : State) : s.raiseTick.n = s.n := rfl
@[simp] theorem State.raiseTick_bufA (s : State) : s.raiseTick.bufA = s.bufA := rfl
@[simp] theorem State.raiseTick_bufB (s : State) : s.raiseTick.bufB = s.bufB := rfl
@[simp] theorem State.raiseTick_bad (s : State) : s.raiseTick.bad = s.bad := rfl
@[simp] theorem State.raiseTick_run (s : State) : s.raiseTick.run = s.run := rfl
@[simp] theorem State.raiseTick_fst (s : State) : s.raiseTick.fst = s.fst := rfl
@[simp] theorem State.raiseTick_dt (s : State) : s.raiseTick.dt = s.dt := rfl
@[simp] theorem State.raiseTick_dtOk (s : State) : s.raiseTick.dtOk = s.dtOk := rfl
@[simp] theorem State.raiseTick_pol (s : State) : s.raiseTick.pol = s.pol := rfl
@[simp] theorem State.raiseTick_century (s : State) : s.raiseTick.century = s.century := rfl
@[simp] theorem State.raiseTick_out (s : State) : s.raiseTick.out = { s.out with tick := true } := rfl
@[simp] theorem State.raiseTick_outValid (s : State) : s.raiseTick.outValid = s.outValid := rfl
@[simp] theorem State.raiseTick_inbox (s : State) : s.raiseTick.inbox = s.inbox := rfl

/-! ### `State.stoppedStep` -/

@[simp] theorem State.stoppedStep_tsRise (s : State) : s.stoppedStep.tsRise = s.tsRise := rfl
@[simp] theorem State.stoppedStep_tsFall (s : State) : s.stoppedStep.tsFall = s.tsFall := rfl
@[simp] theorem State.stoppedStep_skip (s : State) : s.stoppedStep.skip = s.skip := rfl
@[simp] theorem State.stoppedStep_wOn (s : State) : s.stoppedStep.wOn = s.wOn := rfl
@[simp] theorem State.stoppedStep_wOff (s : State) : s.stoppedStep.wOff = s.wOff := rfl
@[simp] theorem State.stoppedStep_n (s : State) : s.stoppedStep.n = s.n := rfl
@[simp] theorem State.stoppedStep_bufA (s : State) : s.stoppedStep.bufA = s.bufA := rfl
@[simp] theorem State.stoppedStep_bufB (s : State) : s.stoppedStep.bufB = s.bufB := rfl
@[simp] theorem State.stoppedStep_bad (s : State) : s.stoppedStep.bad = s.bad := rfl
@[simp] theorem State.stoppedStep_run (s : State) : s.stoppedStep.run = s.run := rfl
@[simp] theorem State.stoppedStep_fst (s : State) : s.stoppedStep.fst = s.fst := rfl
@[simp] theorem State.stoppedStep_dt (s : State) : s.stoppedStep.dt = s.dt := rfl
@[simp] theorem State.stoppedStep_dtOk (s : State) : s.stoppedStep.dtOk = s.dtOk := rfl
@[simp] theorem State.stoppedStep_pol (s : State) : s.stoppedStep.pol = s.pol := rfl
@[simp] theorem State.stoppedStep_century (s : State) : s.stoppedStep.century = s.century := rfl
@[simp] theorem State.stoppedStep_out (s : State) : s.stoppedStep.out = { cls := .stopped } := rfl
@[simp] theorem State.stoppedStep_outValid (s : State) : s.stoppedStep.outValid = true := rfl
@[simp] theorem State.stoppedStep_inbox (s : State) : s.stoppedStep.inbox = s.inbox := rfl

/-! ### `State.clearTs` -/

@[simp] theorem State.clearTs_tsRise (s : State) : s.clearTs.tsRise = 0 := rfl
@[simp] theorem State.clearTs_tsFall (s : State) : s.clearTs.tsFall = 0 := rfl
@[simp] theorem State.clearTs_skip (s : State) : s.clearTs.skip = s.skip := rfl
@[simp] theorem State.clearTs_wOn (s : State) : s.clearTs.wOn = s.wOn := rfl
@[simp] theorem State.clearTs_wOff (s : State) : s.clearTs.wOff = s.wOff := rfl
@[simp] theorem State.clearTs_n (s : State) : s.clearTs.n = s.n := rfl
@[simp] theorem State.clearTs_bufA (s : State) : s.clearTs.bufA = s.bufA := rfl
@[simp] theorem State.clearTs_bufB (s : State) : s.clearTs.bufB = s.bufB := rfl
@[simp] theorem State.clearTs_bad (s : State) : s.clearTs.bad = s.bad := rfl
@[simp] theorem State.clearTs_run (s : State) : s.clearTs.run = s.run := rfl
@[simp] theorem State.clearTs_fst (s : State) : s.clearTs.fst = s.fst := rfl
@[simp] theorem State.clearTs_dt (s : State) : s.clearTs.dt = s.dt := rfl
@[simp] theorem State.clearTs_dtOk (s : State) : s.clearTs.dtOk = s.dtOk := rfl
@[simp] theorem State.clearTs_pol (s : State) : s.clearTs.pol = s.pol := rfl
@[simp] theorem State.clearTs_century (s : State) : s.clearTs.century = s.century := rfl
@[simp] theorem State.clearTs_out (s : State) : s.clearTs.out = s.out := rfl
@[simp] theorem State.clearTs_outValid (s : State) : s.clearTs.outValid = s.outValid := rfl
@[simp] theorem State.clearTs_inbox (s : State) : s.clearTs.inbox = s.inbox := rfl

/-! ### `State.setSkip` -/

@[simp] theorem State.setSkip_tsRise (s : State) (v : Bool) : (s.setSkip v).tsRise = s.tsRise := rfl
@[simp] theorem State.setSkip_tsFall (s : State) (v : Bool) : (s.setSkip v).tsFall = s.tsFall := rfl
@[simp] theorem State.setSkip_skip (s : State) (v : Bool) : (s.setSkip v).skip = v := rfl
@[simp] theorem State.setSkip_wOn (s : State) (v : Bool) : (s.setSkip v).wOn = s.wOn := rfl
@[simp] theorem State.setSkip_wOff (s : State) (v : Bool) : (s.setSkip v).wOff = s.wOff := rfl
@[simp] theorem State.setSkip_n (s : State) (v : Bool) : (s.setSkip v).n = s.n := rfl
@[simp] theorem State.setSkip_bufA (s : State) (v : Bool) : (s.setSkip v).bufA = s.bufA := rfl
@[simp] theorem State.setSkip_bufB (s : State) (v : Bool) : (s.setSkip v).bufB = s.bufB := rfl
@[simp] theorem State.setSkip_bad (s : State) (v : Bool) : (s.setSkip v).bad = s.bad := rfl
@[simp] theorem State.setSkip_run (s : State) (v : Bool) : (s.setSkip v).run = s.run := rfl
@[simp] theorem State.setSkip_fst (s : State) (v : Bool) : (s.setSkip v).fst = s.fst := rfl
@[simp] theorem State.setSkip_dt (s : State) (v : Bool) : (s.setSkip v).dt = s.dt := rfl
@[simp] theorem State.setSkip_dtOk (s : State) (v : Bool) : (s.setSkip v).dtOk = s.dtOk := rfl
@[simp] theorem State.setSkip_pol (s : State) (v : Bool) : (s.setSkip v).pol = s.pol := rfl
@[simp] theorem State.setSkip_century (s : State) (v : Bool) : (s.setSkip v).century = s.century := rfl
@[simp] theorem State.setSkip_out (s : State) (v : Bool) : (s.setSkip v).out = s.out := rfl
@[simp] theorem State.setSkip_outValid (s : State) (v : Bool) : (s.setSkip v).outValid = s.outValid := rfl
@[simp] theorem State.setSkip_inbox (s : State) (v : Bool) : (s.setSkip v).inbox = s.inbox := rfl

/-! ### `State.setWOff` -/

@[simp] theorem State.setWOff_tsRise (s : State) (w : Width) : (s.setWOff w).tsRise = s.tsRise := rfl
@[simp] theorem State.setWOff_tsFall (s : State) (w : Width) : (s.setWOff w).tsFall = s.tsFall := rfl
@[simp] theorem State.setWOff_skip (s : State) (w : Width) : (s.setWOff w).skip = s.skip := rfl
@[simp] theorem State.setWOff_wOn (s : State) (w : Width) : (s.setWOff w).wOn = s.wOn := rfl
@[simp] theorem State.setWOff_wOff (s : State) (w : Width) : (s.setWOff w).wOff = some w := rfl
@[simp] theorem State.setWOff_n (s : State) (w : Width) : (s.setWOff w).n = s.n := rfl
@[simp] theorem State.setWOff_bufA (s : State) (w : Width) : (s.setWOff w).bufA = s.bufA := rfl
@[simp] theorem State.setWOff_bufB (s : State) (w : Width) : (s.setWOff w).bufB = s.bufB := rfl
@[simp] theorem State.setWOff_bad (s : State) (w : Width) : (s.setWOff w).bad = s.bad := rfl
@[simp] theorem State.setWOff_run (s : State) (w : Width) : (s.setWOff w).run = s.run := rfl
@[simp] theorem State.setWOff_fst (s : State) (w : Width) : (s.setWOff w).fst = s.fst := rfl
@[simp] theorem State.setWOff_dt (s : State) (w : Width) : (s.setWOff w).dt = s.dt := rfl
@[simp] theorem State.setWOff_dtOk (s : State) (w : Width) : (s.setWOff w).dtOk = s.dtOk := rfl
@[simp] theorem State.setWOff_pol (s : State) (w : Width) : (s.setWOff w).pol = s.pol := rfl
@[simp] theorem State.setWOff_century (s : State) (w : Width) : (s.setWOff w).century = s.century := rfl
@[simp] theorem State.setWOff_out (s : State) (w : Width) : (s.setWOff w).out = s.out := rfl
@[simp] theorem State.setWOff_outValid (s : State) (w : Width) : (s.setWOff w).outValid = s.outValid := rfl
@[simp] theorem State.setWOff_inbox (s : State) (w : Width) : (s.setWOff w).inbox = s.inbox := rfl

/-! ### `State.setWOn` -/

@[simp] theorem State.setWOn_tsRise (s : State) (w : Width) : (s.setWOn w).tsRise = s.tsRise := rfl
@[simp] theorem State.setWOn_tsFall (s : State) (w : Width) : (s.setWOn w).tsFall = s.tsFall := rfl
@[simp] theorem State.setWOn_skip (s : State) (w : Width) : (s.setWOn w).skip = s.skip := rfl
@[simp] theorem State.setWOn_wOn (s : State) (w : Width) : (s.setWOn w).wOn = some w := rfl
@[simp] theorem State.setWOn_wOff (s : State) (w : Width) : (s.setWOn w).wOff = s.wOff := rfl
@[simp] theorem State.setWOn_n (s : State) (w : Width) : (s.setWOn w).n = s.n := rfl
@[simp] theorem State.setWOn_bufA (s : State) (w : Width) : (s.setWOn w).bufA = s.bufA := rfl
@[simp] theorem State.setWOn_bufB (s : State) (w : Width) : (s.setWOn w).bufB = s.bufB := rfl
@[simp] theorem State.setWOn_bad (s : State) (w : Width) : (s.setWOn w).bad = s.bad := rfl
@[simp] theorem State.setWOn_run (s : State) (w : Width) : (s.setWOn w).run = s.run := rfl
@[simp] theorem State.setWOn_fst (s : State) (w : Width) : (s.setWOn w).fst = s.fst := rfl
@[simp] theorem State.setWOn_dt (s : State) (w : Width) : (s.setWOn w).dt = s.dt := rfl
@[simp] theorem State.setWOn_dtOk (s : State) (w : Width) : (s.setWOn w).dtOk = s.dtOk := rfl
@[simp] theorem State.setWOn_pol (s : State) (w : Width) : (s.setWOn w).pol = s.pol := rfl
@[simp] theorem State.setWOn_century (s : State) (w : Width) : (s.setWOn w).century = s.century := rfl
@[simp] theorem State.setWOn_out (s : State) (w : Width) : (s.setWOn w).out = s.out := rfl
@[simp] theorem State.setWOn_outValid (s : State) (w : Width) : (s.setWOn w).outValid = s.outValid := rfl
@[simp] theorem State.setWOn_inbox (s : State) (w : Width) : (s.setWOn w).inbox = s.inbox := rfl

/-! ### `State.append` -/

@[simp] theorem State.append_tsRise (s : State) (a b : Bool) : (s.append a b).tsRise = s.tsRise := rfl
@[simp] theorem State.append_tsFall (s : State) (a b : Bool) : (s.append a b).tsFall = s.tsFall := rfl
@[simp] theorem State.append_skip (s : State) (a b : Bool) : (s.append a b).skip = s.skip := rfl
@[simp] theorem State.append_wOn (s : State) (a b : Bool) : (s.append a b).wOn = s.wOn := rfl
@[simp] theorem State.append_wOff (s : State) (a b : Bool) : (s.append a b).wOff = s.wOff := rfl
@[simp] theorem State.append_n (s : State) (a b : Bool) : (s.append a b).n = satIncN s.n := rfl
@[simp] theorem State.append_bufA (s : State) (a b : Bool) : (s.append a b).bufA = if s.n.toNat < Params.bufCap then s.bufA.set s.n.toNat a else s.bufA := rfl
@[simp] theorem State.append_bufB (s : State) (a b : Bool) : (s.append a b).bufB = if s.n.toNat < Params.bufCap then s.bufB.set s.n.toNat b else s.bufB := rfl
@[simp] theorem State.append_bad (s : State) (a b : Bool) : (s.append a b).bad = s.bad := rfl
@[simp] theorem State.append_run (s : State) (a b : Bool) : (s.append a b).run = s.run := rfl
@[simp] theorem State.append_fst (s : State) (a b : Bool) : (s.append a b).fst = s.fst := rfl
@[simp] theorem State.append_dt (s : State) (a b : Bool) : (s.append a b).dt = s.dt := rfl
@[simp] theorem State.append_dtOk (s : State) (a b : Bool) : (s.append a b).dtOk = s.dtOk := rfl
@[simp] theorem State.append_pol (s : State) (a b : Bool) : (s.append a b).pol = s.pol := rfl
@[simp] theorem State.append_century (s : State) (a b : Bool) : (s.append a b).century = s.century := rfl
@[simp] theorem State.append_out (s : State) (a b : Bool) : (s.append a b).out = { s.out with app := true, pa := a, pb := b } := rfl
@[simp] theorem State.append_outValid (s : State) (a b : Bool) : (s.append a b).outValid = s.outValid := rfl
@[simp] theorem State.append_inbox (s : State) (a b : Bool) : (s.append a b).inbox = s.inbox := rfl

/-! ### `State.emptyFrame` -/

@[simp] theorem State.emptyFrame_tsRise (s : State) : s.emptyFrame.tsRise = s.tsRise := rfl
@[simp] theorem State.emptyFrame_tsFall (s : State) : s.emptyFrame.tsFall = s.tsFall := rfl
@[simp] theorem State.emptyFrame_skip (s : State) : s.emptyFrame.skip = s.skip := rfl
@[simp] theorem State.emptyFrame_wOn (s : State) : s.emptyFrame.wOn = s.wOn := rfl
@[simp] theorem State.emptyFrame_wOff (s : State) : s.emptyFrame.wOff = s.wOff := rfl
@[simp] theorem State.emptyFrame_n (s : State) : s.emptyFrame.n = 0 := rfl
@[simp] theorem State.emptyFrame_bufA (s : State) : s.emptyFrame.bufA = s.bufA := rfl
@[simp] theorem State.emptyFrame_bufB (s : State) : s.emptyFrame.bufB = s.bufB := rfl
@[simp] theorem State.emptyFrame_bad (s : State) : s.emptyFrame.bad = 0 := rfl
@[simp] theorem State.emptyFrame_run (s : State) : s.emptyFrame.run = s.run := rfl
@[simp] theorem State.emptyFrame_fst (s : State) : s.emptyFrame.fst = s.fst := rfl
@[simp] theorem State.emptyFrame_dt (s : State) : s.emptyFrame.dt = s.dt := rfl
@[simp] theorem State.emptyFrame_dtOk (s : State) : s.emptyFrame.dtOk = s.dtOk := rfl
@[simp] theorem State.emptyFrame_pol (s : State) : s.emptyFrame.pol = s.pol := rfl
@[simp] theorem State.emptyFrame_century (s : State) : s.emptyFrame.century = s.century := rfl
@[simp] theorem State.emptyFrame_out (s : State) : s.emptyFrame.out = s.out := rfl
@[simp] theorem State.emptyFrame_outValid (s : State) : s.emptyFrame.outValid = s.outValid := rfl
@[simp] theorem State.emptyFrame_inbox (s : State) : s.emptyFrame.inbox = s.inbox := rfl

/-! ### `State.recordFrame` -/

@[simp] theorem State.recordFrame_tsRise (s : State) (c : FrameResult) (g : BitVec 2) : (s.recordFrame c g).tsRise = s.tsRise := rfl
@[simp] theorem State.recordFrame_tsFall (s : State) (c : FrameResult) (g : BitVec 2) : (s.recordFrame c g).tsFall = s.tsFall := rfl
@[simp] theorem State.recordFrame_skip (s : State) (c : FrameResult) (g : BitVec 2) : (s.recordFrame c g).skip = s.skip := rfl
@[simp] theorem State.recordFrame_wOn (s : State) (c : FrameResult) (g : BitVec 2) : (s.recordFrame c g).wOn = s.wOn := rfl
@[simp] theorem State.recordFrame_wOff (s : State) (c : FrameResult) (g : BitVec 2) : (s.recordFrame c g).wOff = s.wOff := rfl
@[simp] theorem State.recordFrame_n (s : State) (c : FrameResult) (g : BitVec 2) : (s.recordFrame c g).n = s.n := rfl
@[simp] theorem State.recordFrame_bufA (s : State) (c : FrameResult) (g : BitVec 2) : (s.recordFrame c g).bufA = s.bufA := rfl
@[simp] theorem State.recordFrame_bufB (s : State) (c : FrameResult) (g : BitVec 2) : (s.recordFrame c g).bufB = s.bufB := rfl
@[simp] theorem State.recordFrame_bad (s : State) (c : FrameResult) (g : BitVec 2) : (s.recordFrame c g).bad = s.bad := rfl
@[simp] theorem State.recordFrame_run (s : State) (c : FrameResult) (g : BitVec 2) : (s.recordFrame c g).run = s.run := rfl
@[simp] theorem State.recordFrame_fst (s : State) (c : FrameResult) (g : BitVec 2) : (s.recordFrame c g).fst = { code := c, pg := g } := rfl
@[simp] theorem State.recordFrame_dt (s : State) (c : FrameResult) (g : BitVec 2) : (s.recordFrame c g).dt = s.dt := rfl
@[simp] theorem State.recordFrame_dtOk (s : State) (c : FrameResult) (g : BitVec 2) : (s.recordFrame c g).dtOk = s.dtOk := rfl
@[simp] theorem State.recordFrame_pol (s : State) (c : FrameResult) (g : BitVec 2) : (s.recordFrame c g).pol = s.pol := rfl
@[simp] theorem State.recordFrame_century (s : State) (c : FrameResult) (g : BitVec 2) : (s.recordFrame c g).century = s.century := rfl
@[simp] theorem State.recordFrame_out (s : State) (c : FrameResult) (g : BitVec 2) : (s.recordFrame c g).out = { s.out with fr := c, pg := g } := rfl
@[simp] theorem State.recordFrame_outValid (s : State) (c : FrameResult) (g : BitVec 2) : (s.recordFrame c g).outValid = s.outValid := rfl
@[simp] theorem State.recordFrame_inbox (s : State) (c : FrameResult) (g : BitVec 2) : (s.recordFrame c g).inbox = s.inbox := rfl

/-! ### `State.countBad` -/

@[simp] theorem State.countBad_tsRise (s : State) : s.countBad.tsRise = s.tsRise := rfl
@[simp] theorem State.countBad_tsFall (s : State) : s.countBad.tsFall = s.tsFall := rfl
@[simp] theorem State.countBad_skip (s : State) : s.countBad.skip = s.skip := rfl
@[simp] theorem State.countBad_wOn (s : State) : s.countBad.wOn = s.wOn := rfl
@[simp] theorem State.countBad_wOff (s : State) : s.countBad.wOff = s.wOff := rfl
@[simp] theorem State.countBad_n (s : State) : s.countBad.n = s.n := rfl
@[simp] theorem State.countBad_bufA (s : State) : s.countBad.bufA = s.bufA := rfl
@[simp] theorem State.countBad_bufB (s : State) : s.countBad.bufB = s.bufB := rfl
@[simp] theorem State.countBad_bad (s : State) : s.countBad.bad = satInc8 s.bad := rfl
@[simp] theorem State.countBad_run (s : State) : s.countBad.run = s.run := rfl
@[simp] theorem State.countBad_fst (s : State) : s.countBad.fst = s.fst := rfl
@[simp] theorem State.countBad_dt (s : State) : s.countBad.dt = s.dt := rfl
@[simp] theorem State.countBad_dtOk (s : State) : s.countBad.dtOk = s.dtOk := rfl
@[simp] theorem State.countBad_pol (s : State) : s.countBad.pol = s.pol := rfl
@[simp] theorem State.countBad_century (s : State) : s.countBad.century = s.century := rfl
@[simp] theorem State.countBad_out (s : State) : s.countBad.out = s.out := rfl
@[simp] theorem State.countBad_outValid (s : State) : s.countBad.outValid = s.outValid := rfl
@[simp] theorem State.countBad_inbox (s : State) : s.countBad.inbox = s.inbox := rfl

/-! ### `State.clearDecoder` -/

@[simp] theorem State.clearDecoder_tsRise (s : State) : s.clearDecoder.tsRise = 0 := rfl
@[simp] theorem State.clearDecoder_tsFall (s : State) : s.clearDecoder.tsFall = 0 := rfl
@[simp] theorem State.clearDecoder_skip (s : State) : s.clearDecoder.skip = false := rfl
@[simp] theorem State.clearDecoder_wOn (s : State) : s.clearDecoder.wOn = none := rfl
@[simp] theorem State.clearDecoder_wOff (s : State) : s.clearDecoder.wOff = none := rfl
@[simp] theorem State.clearDecoder_n (s : State) : s.clearDecoder.n = 0 := rfl
@[simp] theorem State.clearDecoder_bufA (s : State) : s.clearDecoder.bufA = s.bufA := rfl
@[simp] theorem State.clearDecoder_bufB (s : State) : s.clearDecoder.bufB = s.bufB := rfl
@[simp] theorem State.clearDecoder_bad (s : State) : s.clearDecoder.bad = 0 := rfl
@[simp] theorem State.clearDecoder_run (s : State) : s.clearDecoder.run = s.run := rfl
@[simp] theorem State.clearDecoder_fst (s : State) : s.clearDecoder.fst = s.fst := rfl
@[simp] theorem State.clearDecoder_dt (s : State) : s.clearDecoder.dt = s.dt := rfl
@[simp] theorem State.clearDecoder_dtOk (s : State) : s.clearDecoder.dtOk = s.dtOk := rfl
@[simp] theorem State.clearDecoder_pol (s : State) : s.clearDecoder.pol = s.pol := rfl
@[simp] theorem State.clearDecoder_century (s : State) : s.clearDecoder.century = s.century := rfl
@[simp] theorem State.clearDecoder_out (s : State) : s.clearDecoder.out = s.out := rfl
@[simp] theorem State.clearDecoder_outValid (s : State) : s.clearDecoder.outValid = s.outValid := rfl
@[simp] theorem State.clearDecoder_inbox (s : State) : s.clearDecoder.inbox = s.inbox := rfl

/-! ### `State.deliverTime` -/

@[simp] theorem State.deliverTime_tsRise (s : State) (t : DecodedTime) : (s.deliverTime t).tsRise = s.tsRise := rfl
@[simp] theorem State.deliverTime_tsFall (s : State) (t : DecodedTime) : (s.deliverTime t).tsFall = s.tsFall := rfl
@[simp] theorem State.deliverTime_skip (s : State) (t : DecodedTime) : (s.deliverTime t).skip = s.skip := rfl
@[simp] theorem State.deliverTime_wOn (s : State) (t : DecodedTime) : (s.deliverTime t).wOn = s.wOn := rfl
@[simp] theorem State.deliverTime_wOff (s : State) (t : DecodedTime) : (s.deliverTime t).wOff = s.wOff := rfl
@[simp] theorem State.deliverTime_n (s : State) (t : DecodedTime) : (s.deliverTime t).n = s.n := rfl
@[simp] theorem State.deliverTime_bufA (s : State) (t : DecodedTime) : (s.deliverTime t).bufA = s.bufA := rfl
@[simp] theorem State.deliverTime_bufB (s : State) (t : DecodedTime) : (s.deliverTime t).bufB = s.bufB := rfl
@[simp] theorem State.deliverTime_bad (s : State) (t : DecodedTime) : (s.deliverTime t).bad = s.bad := rfl
@[simp] theorem State.deliverTime_run (s : State) (t : DecodedTime) : (s.deliverTime t).run = s.run := rfl
@[simp] theorem State.deliverTime_fst (s : State) (t : DecodedTime) : (s.deliverTime t).fst = { code := .ok, pg := 0 } := rfl
@[simp] theorem State.deliverTime_dt (s : State) (t : DecodedTime) : (s.deliverTime t).dt = packTime t := rfl
@[simp] theorem State.deliverTime_dtOk (s : State) (t : DecodedTime) : (s.deliverTime t).dtOk = true := rfl
@[simp] theorem State.deliverTime_pol (s : State) (t : DecodedTime) : (s.deliverTime t).pol = s.pol := rfl
@[simp] theorem State.deliverTime_century (s : State) (t : DecodedTime) : (s.deliverTime t).century = s.century := rfl
@[simp] theorem State.deliverTime_out (s : State) (t : DecodedTime) : (s.deliverTime t).out = { s.out with fr := .ok, pg := 0 } := rfl
@[simp] theorem State.deliverTime_outValid (s : State) (t : DecodedTime) : (s.deliverTime t).outValid = s.outValid := rfl
@[simp] theorem State.deliverTime_inbox (s : State) (t : DecodedTime) : (s.deliverTime t).inbox = s.inbox := rfl

/-! ### `State.takeInput` -/

@[simp] theorem State.takeInput_tsRise (s : State) (x : Input) (rest : List Input) : (s.takeInput x rest).tsRise = s.tsRise := rfl
@[simp] theorem State.takeInput_tsFall (s : State) (x : Input) (rest : List Input) : (s.takeInput x rest).tsFall = s.tsFall := rfl
@[simp] theorem State.takeInput_skip (s : State) (x : Input) (rest : List Input) : (s.takeInput x rest).skip = s.skip := rfl
@[simp] theorem State.takeInput_wOn (s : State) (x : Input) (rest : List Input) : (s.takeInput x rest).wOn = s.wOn := rfl
@[simp] theorem State.takeInput_wOff (s : State) (x : Input) (rest : List Input) : (s.takeInput x rest).wOff = s.wOff := rfl
@[simp] theorem State.takeInput_n (s : State) (x : Input) (rest : List Input) : (s.takeInput x rest).n = s.n := rfl
@[simp] theorem State.takeInput_bufA (s : State) (x : Input) (rest : List Input) : (s.takeInput x rest).bufA = s.bufA := rfl
@[simp] theorem State.takeInput_bufB (s : State) (x : Input) (rest : List Input) : (s.takeInput x rest).bufB = s.bufB := rfl
@[simp] theorem State.takeInput_bad (s : State) (x : Input) (rest : List Input) : (s.takeInput x rest).bad = s.bad := rfl
@[simp] theorem State.takeInput_run (s : State) (x : Input) (rest : List Input) : (s.takeInput x rest).run = s.run := rfl
@[simp] theorem State.takeInput_fst (s : State) (x : Input) (rest : List Input) : (s.takeInput x rest).fst = s.fst := rfl
@[simp] theorem State.takeInput_dt (s : State) (x : Input) (rest : List Input) : (s.takeInput x rest).dt = s.dt := rfl
@[simp] theorem State.takeInput_dtOk (s : State) (x : Input) (rest : List Input) : (s.takeInput x rest).dtOk = s.dtOk := rfl
@[simp] theorem State.takeInput_pol (s : State) (x : Input) (rest : List Input) : (s.takeInput x rest).pol = x.pol := rfl
@[simp] theorem State.takeInput_century (s : State) (x : Input) (rest : List Input) : (s.takeInput x rest).century = x.century := rfl
@[simp] theorem State.takeInput_out (s : State) (x : Input) (rest : List Input) : (s.takeInput x rest).out = s.out := rfl
@[simp] theorem State.takeInput_outValid (s : State) (x : Input) (rest : List Input) : (s.takeInput x rest).outValid = s.outValid := rfl
@[simp] theorem State.takeInput_inbox (s : State) (x : Input) (rest : List Input) : (s.takeInput x rest).inbox = rest := rfl

/-! ### `State.idle` -/

@[simp] theorem State.idle_tsRise (s : State) : s.idle.tsRise = s.tsRise := rfl
@[simp] theorem State.idle_tsFall (s : State) : s.idle.tsFall = s.tsFall := rfl
@[simp] theorem State.idle_skip (s : State) : s.idle.skip = s.skip := rfl
@[simp] theorem State.idle_wOn (s : State) : s.idle.wOn = s.wOn := rfl
@[simp] theorem State.idle_wOff (s : State) : s.idle.wOff = s.wOff := rfl
@[simp] theorem State.idle_n (s : State) : s.idle.n = s.n := rfl
@[simp] theorem State.idle_bufA (s : State) : s.idle.bufA = s.bufA := rfl
@[simp] theorem State.idle_bufB (s : State) : s.idle.bufB = s.bufB := rfl
@[simp] theorem State.idle_bad (s : State) : s.idle.bad = s.bad := rfl
@[simp] theorem State.idle_run (s : State) : s.idle.run = s.run := rfl
@[simp] theorem State.idle_fst (s : State) : s.idle.fst = s.fst := rfl
@[simp] theorem State.idle_dt (s : State) : s.idle.dt = s.dt := rfl
@[simp] theorem State.idle_dtOk (s : State) : s.idle.dtOk = s.dtOk := rfl
@[simp] theorem State.idle_pol (s : State) : s.idle.pol = s.pol := rfl
@[simp] theorem State.idle_century (s : State) : s.idle.century = s.century := rfl
@[simp] theorem State.idle_out (s : State) : s.idle.out = s.out := rfl
@[simp] theorem State.idle_outValid (s : State) : s.idle.outValid = false := rfl
@[simp] theorem State.idle_inbox (s : State) : s.idle.inbox = s.inbox := rfl

/-! ### `State.mirror` -/

@[simp] theorem State.mirror_tsRise (s : State) : s.mirror.tsRise = s.tsFall := rfl
@[simp] theorem State.mirror_tsFall (s : State) : s.mirror.tsFall = s.tsRise := rfl
@[simp] theorem State.mirror_skip (s : State) : s.mirror.skip = s.skip := rfl
@[simp] theorem State.mirror_wOn (s : State) : s.mirror.wOn = s.wOn := rfl
@[simp] theorem State.mirror_wOff (s : State) : s.mirror.wOff = s.wOff := rfl
@[simp] theorem State.mirror_n (s : State) : s.mirror.n = s.n := rfl
@[simp] theorem State.mirror_bufA (s : State) : s.mirror.bufA = s.bufA := rfl
@[simp] theorem State.mirror_bufB (s : State) : s.mirror.bufB = s.bufB := rfl
@[simp] theorem State.mirror_bad (s : State) : s.mirror.bad = s.bad := rfl
@[simp] theorem State.mirror_run (s : State) : s.mirror.run = s.run := rfl
@[simp] theorem State.mirror_fst (s : State) : s.mirror.fst = s.fst := rfl
@[simp] theorem State.mirror_dt (s : State) : s.mirror.dt = s.dt := rfl
@[simp] theorem State.mirror_dtOk (s : State) : s.mirror.dtOk = s.dtOk := rfl
@[simp] theorem State.mirror_pol (s : State) : s.mirror.pol = !s.pol := rfl
@[simp] theorem State.mirror_century (s : State) : s.mirror.century = s.century := rfl
@[simp] theorem State.mirror_out (s : State) : s.mirror.out = s.out := rfl
@[simp] theorem State.mirror_outValid (s : State) : s.mirror.outValid = s.outValid := rfl
@[simp] theorem State.mirror_inbox (s : State) : s.mirror.inbox = s.inbox := rfl

/-! ### `State.setTs` -/

@[simp] theorem State.setTs_skip (s : State) (d : Direction) (t : Timestamp) : (s.setTs d t).skip = s.skip := by
  cases d <;> rfl
@[simp] theorem State.setTs_wOn (s : State) (d : Direction) (t : Timestamp) : (s.setTs d t).wOn = s.wOn := by
  cases d <;> rfl
@[simp] theorem State.setTs_wOff (s : State) (d : Direction) (t : Timestamp) : (s.setTs d t).wOff = s.wOff := by
  cases d <;> rfl
@[simp] theorem State.setTs_n (s : State) (d : Direction) (t : Timestamp) : (s.setTs d t).n = s.n := by
  cases d <;> rfl
@[simp] theorem State.setTs_bufA (s : State) (d : Direction) (t : Timestamp) : (s.setTs d t).bufA = s.bufA := by
  cases d <;> rfl
@[simp] theorem State.setTs_bufB (s : State) (d : Direction) (t : Timestamp) : (s.setTs d t).bufB = s.bufB := by
  cases d <;> rfl
@[simp] theorem State.setTs_bad (s : State) (d : Direction) (t : Timestamp) : (s.setTs d t).bad = s.bad := by
  cases d <;> rfl
@[simp] theorem State.setTs_run (s : State) (d : Direction) (t : Timestamp) : (s.setTs d t).run = s.run := by
  cases d <;> rfl
@[simp] theorem State.setTs_fst (s : State) (d : Direction) (t : Timestamp) : (s.setTs d t).fst = s.fst := by
  cases d <;> rfl
@[simp] theorem State.setTs_dt (s : State) (d : Direction) (t : Timestamp) : (s.setTs d t).dt = s.dt := by
  cases d <;> rfl
@[simp] theorem State.setTs_dtOk (s : State) (d : Direction) (t : Timestamp) : (s.setTs d t).dtOk = s.dtOk := by
  cases d <;> rfl
@[simp] theorem State.setTs_pol (s : State) (d : Direction) (t : Timestamp) : (s.setTs d t).pol = s.pol := by
  cases d <;> rfl
@[simp] theorem State.setTs_century (s : State) (d : Direction) (t : Timestamp) : (s.setTs d t).century = s.century := by
  cases d <;> rfl
@[simp] theorem State.setTs_out (s : State) (d : Direction) (t : Timestamp) : (s.setTs d t).out = s.out := by
  cases d <;> rfl
@[simp] theorem State.setTs_outValid (s : State) (d : Direction) (t : Timestamp) : (s.setTs d t).outValid = s.outValid := by
  cases d <;> rfl
@[simp] theorem State.setTs_inbox (s : State) (d : Direction) (t : Timestamp) : (s.setTs d t).inbox = s.inbox := by
  cases d <;> rfl
@[simp] theorem State.setTs_rising (s : State) (t : Timestamp) : s.setTs .rising t = { s with tsRise := t } := rfl
@[simp] theorem State.setTs_falling (s : State) (t : Timestamp) : s.setTs .falling t = { s with tsFall := t } := rfl
@[simp] theorem State.ts_rising (s : State) : s.ts .rising = s.tsRise := rfl
@[simp] theorem State.ts_falling (s : State) : s.ts .falling = s.tsFall := rfl
@[simp] theorem Direction.opp_rising : Direction.rising.opp = .falling := rfl
@[simp] theorem Direction.opp_falling : Direction.falling.opp = .rising := rfl
@[simp] theorem State.buf_A (s : State) : s.buf .A = s.bufA := rfl
@[simp] theorem State.buf_B (s : State) : s.buf .B = s.bufB := rfl

/-! ### `State.report`, one lemma per failure -/

@[simp] theorem State.report_unclassified (s : State) :
    s.report .unclassifiedPulse = { s with bad := satInc8 s.bad, out := { s.out with cls := .unclassified } } := rfl
@[simp] theorem State.report_unexpected (s : State) :
    s.report .unexpectedPulse = { s with bad := satInc8 s.bad, out := { s.out with unexp := true } } := rfl
@[simp] theorem State.report_discarded (s : State) : s.report .minuteDiscarded = s.recordFrame .discarded 0 := rfl
@[simp] theorem State.report_length (s : State) : s.report .lengthMismatch = s.recordFrame .length 0 := rfl
@[simp] theorem State.report_marker (s : State) : s.report .markerNotFound = s.recordFrame .marker 0 := rfl
@[simp] theorem State.report_parity (s : State) (g : BitVec 2) :
    s.report (.parityFailure g) = s.recordFrame .parity g := rfl

/-! ### `andThen` -/

@[simp] theorem andThen_next (s : State) (f : State → State) : andThen (.next s) f = .next (f s) := rfl
@[simp] theorem andThen_fault (x : Fault) (f : State → State) : andThen (.fault x) f = .fault x := rfl
@[simp] theorem andThen_refused (x : Refusal) (f : State → State) : andThen (.refused x) f = .refused x := rfl

/-- What a partial result with a continuation can answer. -/
theorem andThen_eq_next {r : Result} {f : State → State} {t : State} :
    andThen r f = .next t ↔ ∃ s, r = .next s ∧ f s = t := by
  cases r <;> simp [andThen]

end Sys2Proof.Machine
end

