-- ==== Sys2Proof/Laws/Memory.lean ====
section
/-! SUPPORT. The laws of the frame buffers: what a read gives after a write, that every operation keeps the canonical
form, and that equal contents are equal data. -/

namespace Sys2Proof.Machine

namespace Memory

@[simp] theorem bit_nil (i : Nat) : bit [] i = false := rfl

theorem wfFrom_cons {lo k : Nat} {b : BitVec 8} {m : Memory} :
    wfFrom lo ((k, b) :: m) = true ↔ lo ≤ k ∧ k < 60 ∧ b = 1 ∧ wfFrom (k + 1) m = true := by
  simp only [wfFrom, Params.bufCap, Bool.and_eq_true, decide_eq_true_eq, and_assoc]

/-- A list that is in form from `hi` on is in form from any lower index on. -/
theorem wfFrom_le {lo hi : Nat} (h : lo ≤ hi) : ∀ {m : Memory}, wfFrom hi m = true → wfFrom lo m = true
  | [], _ => rfl
  | (k, b) :: m, hm => by
    rw [wfFrom_cons] at hm ⊢
    exact ⟨by omega, hm.2⟩

/-- Nothing is listed below the index a list is in form from. -/
theorem bit_of_lt {i : Nat} : ∀ {m : Memory} {lo : Nat}, wfFrom lo m = true → i < lo → bit m i = false
  | [], _, _, _ => rfl
  | (k, b) :: m, lo, hm, hi => by
    rw [wfFrom_cons] at hm
    have hk : k ≠ i := by omega
    simp only [bit, if_neg hk]
    exact bit_of_lt hm.2.2.2 (by omega)

/-- A write gives the value written at its own index. -/
theorem bit_set_same {i : Nat} (v : Bool) : ∀ {m : Memory} {lo : Nat}, wfFrom lo m = true → bit (set m i v) i = v
  | [], _, _ => by cases v <;> simp [set, bit]
  | (k, b) :: m, lo, hm => by
    rw [wfFrom_cons] at hm
    obtain ⟨_, _, _, hm⟩ := hm
    unfold set
    split
    · rename_i h
      simp only [bit, if_neg (Nat.ne_of_lt h)]
      exact bit_set_same v hm
    · split
      · rename_i h
        subst h
        cases v
        · simpa using bit_of_lt hm (Nat.lt_succ_self _)
        · simp [bit]
      · rename_i h1 h2
        cases v
        · simp only [Bool.false_eq_true, if_false, bit, if_neg h2]
          exact bit_of_lt hm (by omega)
        · simp [bit]

/-- A write leaves every other cell alone. -/
theorem bit_set_other {i j : Nat} (v : Bool) (h : j ≠ i) : ∀ {m : Memory}, bit (set m i v) j = bit m j
  | [] => by
    have hij : i ≠ j := fun e => h e.symm
    cases v <;> simp [set, bit, unlisted, hij]
  | (k, b) :: m => by
    have hij : i ≠ j := fun e => h e.symm
    unfold set
    split
    · simp only [bit, bit_set_other v h]
    · split
      · rename_i hk
        subst hk
        cases v <;> simp [bit, hij]
      · cases v <;> simp [bit, hij]

/-- A write inside the channel keeps the canonical form. -/
theorem set_wfFrom {i : Nat} (v : Bool) (hi : i < 60) :
    ∀ {m : Memory} {lo : Nat}, lo ≤ i → wfFrom lo m = true → wfFrom lo (set m i v) = true
  | [], lo, hlo, _ => by cases v <;> simp [set, wfFrom, Params.bufCap, hlo, hi]
  | (k, b) :: m, lo, hlo, hm => by
    rw [wfFrom_cons] at hm
    obtain ⟨h1, h2, h3, hm⟩ := hm
    unfold set
    split
    · rename_i hk
      rw [wfFrom_cons]
      exact ⟨h1, h2, h3, set_wfFrom v hi hk hm⟩
    · split
      · rename_i hk
        subst hk
        cases v
        · exact wfFrom_le (by omega) hm
        · simpa [wfFrom_cons] using ⟨hlo, hi, hm⟩
      · rename_i hk1 hk2
        cases v
        · simpa [wfFrom_cons] using ⟨h1, h2, h3, hm⟩
        · simpa [wfFrom_cons] using ⟨hlo, hi, by omega, h2, h3, hm⟩

theorem set_wf {m : Memory} {i : Nat} (v : Bool) (hi : i < 60) (h : m.wf = true) : (set m i v).wf = true :=
  set_wfFrom v hi (Nat.zero_le _) h

theorem wf_nil : wf [] = true := rfl

/-- In canonical form, equal contents are equal data. -/
theorem eq_of_bit : ∀ {m m' : Memory} {lo : Nat}, wfFrom lo m = true → wfFrom lo m' = true →
    (∀ i, bit m i = bit m' i) → m = m'
  | [], [], _, _, _, _ => rfl
  | [], (k, b) :: m', _, _, h', e => by
    rw [wfFrom_cons] at h'
    have := e k
    simp [bit, unlisted, h'.2.2.1] at this
  | (k, b) :: m, [], _, h, _, e => by
    rw [wfFrom_cons] at h
    have := e k
    simp [bit, unlisted, h.2.2.1] at this
  | (k, b) :: m, (k', b') :: m', lo, h, h', e => by
    rw [wfFrom_cons] at h h'
    obtain ⟨_, _, rfl, hm⟩ := h
    obtain ⟨_, _, rfl, hm'⟩ := h'
    have hk : k = k' := by
      by_contra hne
      rcases Nat.lt_or_gt_of_ne hne with hlt | hlt
      · have hb := bit_of_lt (i := k) hm' (by omega)
        have := e k
        simp [bit, hb, Ne.symm hne] at this
      · have hb := bit_of_lt (i := k') hm (by omega)
        have := e k'
        simp [bit, hb, hne] at this
    subst hk
    have : m = m' := by
      refine eq_of_bit hm hm' fun i => ?_
      by_cases hi : k = i
      · subst hi
        rw [bit_of_lt hm (Nat.lt_succ_self _), bit_of_lt hm' (Nat.lt_succ_self _)]
      · have := e i
        simpa [bit, hi] using this
    rw [this]

end Memory

/-! ## Reading a cell of the state -/

theorem State.readCell_of_lt (s : State) (ch : Channel) {i : Nat} (h : i < 60) :
    s.readCell ch i = .ok ((s.buf ch).bit i) := by
  simp [State.readCell, Params.bufCap, h]

theorem State.readCell_outside (s : State) (ch : Channel) {i : Nat} (h : 60 ≤ i) :
    s.readCell ch i = .error (.noSuchCell i) := by
  simp [State.readCell, Params.bufCap, Nat.not_lt.mpr h]

/-- Reading a cell depends on the buffers alone. -/
theorem State.readCell_congr {s t : State} (hA : t.bufA = s.bufA) (hB : t.bufB = s.bufB) (ch : Channel) (i : Nat) :
    t.readCell ch i = s.readCell ch i := by
  cases ch <;> simp [State.readCell, State.buf, hA, hB]

theorem State.channel_length (s : State) (ch : Channel) : (s.channel ch).length = min s.n.toNat 60 := by
  simp [State.channel, Params.bufCap]

/-- The completed sequence of a channel depends on `n` and on the cells below it alone. -/
theorem State.channel_congr {s t : State} (ch : Channel) (hn : t.n = s.n)
    (h : ∀ i, i < min s.n.toNat 60 → (t.buf ch).bit i = (s.buf ch).bit i) : t.channel ch = s.channel ch := by
  unfold State.channel
  rw [hn]
  exact List.map_congr_left fun i hi => h i (by simpa [Params.bufCap] using hi)

end Sys2Proof.Machine
end

