-- ==== Sys2Proof/Laws/Ops.lean ====
section
/-! SUPPORT. One lemma per shared operation that says once everything it can do: later proofs cite these and unfold
nothing. -/

namespace Sys2Proof.Machine

/-! ## Counters -/

theorem satInc8_toNat (v : BitVec 8) : (satInc8 v).toNat = min (v.toNat + 1) 255 := by
  have := v.isLt
  simp only [satInc8, Params.badSat, BitVec.toNat_ofNat]
  omega

theorem satIncN_toNat (v : BitVec 6) : (satIncN v).toNat = min (v.toNat + 1) 61 := by
  have := v.isLt
  simp only [satIncN, Params.nSat, BitVec.toNat_ofNat]
  omega

theorem satInc8_ne_zero (v : BitVec 8) : satInc8 v ≠ 0 := by
  intro h
  have := satInc8_toNat v
  have h0 : (satInc8 v).toNat = 0 := by rw [h]; rfl
  omega

/-! ## APPEND -/

/-- `APPEND` keeps the canonical form of both buffers. -/
theorem State.append_wf {s : State} (a b : Bool) (hA : s.bufA.wf = true) (hB : s.bufB.wf = true) :
    (s.append a b).bufA.wf = true ∧ (s.append a b).bufB.wf = true := by
  constructor <;> simp only [State.append_bufA, State.append_bufB] <;> split
  · exact Memory.set_wf a ‹_› hA
  · exact hA
  · exact Memory.set_wf b ‹_› hB
  · exact hB

/-- What `APPEND` does to the cells, for any state with the buffers it leaves. -/
theorem State.append_cells {s t : State} (a b : Bool) (hA : s.bufA.wf = true) (hB : s.bufB.wf = true)
    (htA : t.bufA = (s.append a b).bufA) (htB : t.bufB = (s.append a b).bufB) : CellsAppended s t a b := by
  intro ch i
  by_cases hi : i < 60
  · rw [State.readCell_of_lt t ch hi]
    by_cases hn : s.n.toNat < 60
    · by_cases hin : i = s.n.toNat
      · subst hin
        cases ch
        · simp [htA, Params.bufCap, hn, Memory.bit_set_same a hA]
        · simp [htB, Params.bufCap, hn, Memory.bit_set_same b hB]
      · rw [if_neg (fun h => hin h.2), State.readCell_of_lt s ch hi]
        cases ch
        · simp [htA, Params.bufCap, hn, Memory.bit_set_other a hin]
        · simp [htB, Params.bufCap, hn, Memory.bit_set_other b hin]
    · rw [if_neg (fun h => hn h.1), State.readCell_of_lt s ch hi]
      cases ch <;> simp [htA, htB, Params.bufCap, hn]
  · have hi' : 60 ≤ i := by omega
    rw [State.readCell_outside t ch hi', State.readCell_outside s ch hi', if_neg (by omega)]

/-! ## The unexpected-pulse test -/

theorem State.crossCheck_of_unexpected {s : State} {w : Width} (h : unexpected w s.wOff = true) :
    s.crossCheck w = { s with bad := satInc8 s.bad, out := { s.out with unexp := true } } := by
  simp [State.crossCheck, h]

theorem State.crossCheck_of_expected {s : State} {w : Width} (h : unexpected w s.wOff = false) :
    s.crossCheck w = { s with out := { s.out with tick := true } } := by
  simp [State.crossCheck, h, State.raiseTick]

/-- The two things the unexpected-pulse test can do. -/
theorem State.crossCheck_cases (s : State) (w : Width) :
    (unexpected w s.wOff = true ∧
      s.crossCheck w = { s with bad := satInc8 s.bad, out := { s.out with unexp := true } }) ∨
    (unexpected w s.wOff = false ∧ s.crossCheck w = { s with out := { s.out with tick := true } }) := by
  cases h : unexpected w s.wOff
  · exact .inr ⟨rfl, State.crossCheck_of_expected h⟩
  · exact .inl ⟨rfl, State.crossCheck_of_unexpected h⟩

/-! ## The validator and the minute close -/

/-- The validator passes a frame exactly when all checks hold. -/
theorem validate_passed {a b : List Bool} :
    validate a b = .passed ↔
      a.length = 59 ∧ markerHolds a = true ∧ ∀ g ∈ parityGroups, groupFails a b g = false := by
  unfold validate
  split
  · rename_i h
    simp only [Params.frameLen] at h
    simp [h]
  · rename_i h
    simp only [Params.frameLen, ne_eq, not_not] at h
    split
    · rename_i hm
      simp [hm]
    · rename_i hm
      split
      · rename_i g hg
        simp only [reduceCtorEq, false_iff]
        intro hc
        have h1 := List.find?_some hg
        rw [hc.2.2 g (List.mem_of_find?_eq_some hg)] at h1
        exact Bool.noConfusion h1
      · rename_i hg
        rw [List.find?_eq_none] at hg
        simpa [h, hm] using hg

/-- The result a failed validation records. -/
def Verdict.frameResult : Verdict → FrameResult × BitVec 2
  | .passed => (.ok, 0)
  | .failed .minuteDiscarded => (.discarded, 0)
  | .failed .lengthMismatch => (.length, 0)
  | .failed .markerNotFound => (.marker, 0)
  | .failed (.parityFailure g) => (.parity, g)
  | .failed _ => (.noFrame, 0)

/-- A failed validation is one of the three of R161. -/
theorem validate_failed {a b : List Bool} {f : Failure} (h : validate a b = .failed f) :
    f = .lengthMismatch ∨ f = .markerNotFound ∨ ∃ g, f = .parityFailure g := by
  unfold validate at h
  split at h
  · exact .inl (by simpa using h.symm)
  · split at h
    · exact .inr (.inl (by simpa using h.symm))
    · split at h
      · rename_i g _
        exact .inr (.inr ⟨g, by simpa using h.symm⟩)
      · simp at h

theorem State.handsOver_iff (s : State) :
    s.handsOver = true ↔ s.bad = 0 ∧ 58 ≤ s.n.toNat ∧ s.n.toNat ≤ 60 := by
  simp [State.handsOver, State.midBadRun, and_assoc]

/-- Everything a minute close can answer as a next state: a recorded frame result other than OK, or a delivered time. -/
theorem State.closeMinute_cases {s t : State} (h : s.closeMinute = .next t) :
    (s.handsOver = false ∧ t = (s.recordFrame .discarded 0).emptyFrame) ∨
    (s.handsOver = true ∧ ∃ c g,
      (c = .length ∧ g = 0 ∧ validate (s.channel .A) (s.channel .B) = .failed .lengthMismatch ∨
        c = .marker ∧ g = 0 ∧ validate (s.channel .A) (s.channel .B) = .failed .markerNotFound ∨
        c = .parity ∧ validate (s.channel .A) (s.channel .B) = .failed (.parityFailure g)) ∧
      t = (s.recordFrame c g).emptyFrame) ∨
    (s.handsOver = true ∧ validate (s.channel .A) (s.channel .B) = .passed ∧ s.century ≠ 0 ∧
      t = (s.deliverTime (decodeTime s.century (s.channel .A) (s.channel .B))).emptyFrame) := by
  unfold State.closeMinute at h
  cases hh : s.handsOver with
  | false =>
    rw [hh] at h
    simp only [Bool.false_eq_true, if_false, andThen_next, Host.Outcome.next.injEq] at h
    exact .inl ⟨rfl, h.symm⟩
  | true =>
    rw [hh] at h
    simp only [if_true] at h
    unfold State.validateFrame at h
    split at h
    · rename_i f hf
      simp only [andThen_next, Host.Outcome.next.injEq] at h
      refine .inr (.inl ⟨rfl, ?_⟩)
      rcases validate_failed hf with rfl | rfl | ⟨g, rfl⟩
      · exact ⟨.length, 0, .inl ⟨rfl, rfl, hf⟩, h.symm⟩
      · exact ⟨.marker, 0, .inr (.inl ⟨rfl, rfl, hf⟩), h.symm⟩
      · exact ⟨.parity, g, .inr (.inr ⟨rfl, hf⟩), h.symm⟩
    · rename_i hp
      split at h
      · simp at h
      · rename_i hc
        simp only [andThen_next, Host.Outcome.next.injEq] at h
        exact .inr (.inr ⟨rfl, hp, hc, h.symm⟩)

/-- The four ways a minute can close, each from its own conditions. -/
theorem State.closeMinute_discarded {s : State} (h : s.handsOver = false) :
    s.closeMinute = .next (s.recordFrame .discarded 0).emptyFrame := by
  simp [State.closeMinute, h]

theorem State.closeMinute_failed {s : State} {f : Failure} (h : s.handsOver = true)
    (hv : validate (s.channel .A) (s.channel .B) = .failed f) : s.closeMinute = .next (s.report f).emptyFrame := by
  simp only [State.closeMinute, h, if_true, State.validateFrame, hv, andThen_next]

theorem State.closeMinute_delivered {s : State} (h : s.handsOver = true)
    (hv : validate (s.channel .A) (s.channel .B) = .passed) (hc : s.century ≠ 0) :
    s.closeMinute =
      .next (s.deliverTime (decodeTime s.century (s.channel .A) (s.channel .B))).emptyFrame := by
  simp only [State.closeMinute, h, if_true, State.validateFrame, hv, if_neg hc, andThen_next]

theorem State.closeMinute_refused {s : State} (h : s.handsOver = true)
    (hv : validate (s.channel .A) (s.channel .B) = .passed) (hc : s.century = 0) :
    s.closeMinute = .refused .centuryReserved := by
  simp only [State.closeMinute, h, if_true, State.validateFrame, hv, if_pos hc, andThen_refused]

/-- A minute close never faults, and what it refuses is a frame that passes every check under the reserved century. -/
theorem State.closeMinute_stops (s : State) :
    (∀ f, s.closeMinute ≠ .fault f) ∧
      ∀ r, s.closeMinute = .refused r → r = .centuryReserved ∧ s.century = 0 ∧ s.bad = 0 ∧
        validate (s.channel .A) (s.channel .B) = .passed := by
  cases h : s.handsOver with
  | false => simp [State.closeMinute_discarded h]
  | true =>
    cases hv : validate (s.channel .A) (s.channel .B) with
    | failed f => simp [State.closeMinute_failed h hv]
    | passed =>
      by_cases hc : s.century = 0
      · rw [State.closeMinute_refused h hv hc]
        exact ⟨by simp, fun r hr => ⟨by simpa using hr.symm, hc, (State.handsOver_iff s |>.1 h).1, rfl⟩⟩
      · simp [State.closeMinute_delivered h hv hc]

/-- A minute close stops only where the spec refuses `CENTURY = 0`. -/
theorem State.closeMinute_completes {s : State} (h : s.century ≠ 0) : Completes s.closeMinute := by
  unfold State.closeMinute State.validateFrame
  simp only [if_neg h]
  split
  · split
    · exact ⟨_, rfl⟩
    · exact ⟨_, rfl⟩
  · exact ⟨_, rfl⟩

/-! ## The classifier -/

/-- Everything the measuring stages can do. -/
theorem measureInterval_cases (d : Direction) (t : Timestamp) (s : State) :
    ((t - s.ts d.opp).toNat < 50000 ∧
      measureInterval d t s = .ended (((s.setTs d t).setSkip true).setCls .none)) ∨
    (50000 ≤ (t - s.ts d.opp).toNat ∧ ∃ w, classifyInterval (t - s.ts d.opp).toNat = some w ∧
      measureInterval d t s = .symbol ⟨pulsePolarity s.pol d, w⟩ (s.setTs d t)) ∨
    (50000 ≤ (t - s.ts d.opp).toNat ∧ classifyInterval (t - s.ts d.opp).toNat = none ∧
      measureInterval d t s = .ended ((s.setTs d t).report .unclassifiedPulse)) := by
  unfold measureInterval
  generalize (t - s.ts d.opp).toNat = delta
  by_cases h : delta < 50000
  · exact .inl ⟨h, if_pos h⟩
  · have h' : 50000 ≤ delta := by omega
    refine .inr ?_
    simp only [Params.tIgnore, if_neg h]
    cases hc : classifyInterval delta with
    | some w => exact .inl ⟨h', w, rfl, rfl⟩
    | none => exact .inr ⟨h', rfl, rfl⟩

/-- Everything the classifier can do, stage by stage. -/
theorem classifier_cases (d : Direction) (t : Timestamp) (s : State) :
    (s.skip = true ∧ classifier d t s = .ended ((s.setSkip false).setCls .ignored)) ∨
    (s.skip = false ∧ s.ts d.opp = 0 ∧ classifier d t s = .ended ((s.setTs d t).setCls .incomplete)) ∨
    (s.skip = false ∧ s.ts d.opp ≠ 0 ∧ (t < s.tsRise ∨ t < s.tsFall) ∧
      classifier d t s = .ended (s.clearTs.setCls .incomplete)) ∨
    (s.skip = false ∧ s.ts d.opp ≠ 0 ∧ s.tsRise ≤ t ∧ s.tsFall ≤ t ∧ classifier d t s = measureInterval d t s) := by
  cases hs : s.skip with
  | true => exact .inl ⟨rfl, by simp [classifier, hs]⟩
  | false =>
    by_cases h0 : s.ts d.opp = 0
    · exact .inr (.inl ⟨rfl, h0, by simp [classifier, hs, h0]⟩)
    · by_cases hw : t < s.tsRise ∨ t < s.tsFall
      · exact .inr (.inr (.inl ⟨rfl, h0, hw, by
          simp only [classifier, hs, Bool.false_eq_true, if_false, if_neg h0, if_pos hw]⟩))
      · refine .inr (.inr (.inr ⟨rfl, h0, ?_, ?_, by
          simp only [classifier, hs, Bool.false_eq_true, if_false, if_neg h0, if_neg hw]⟩)) <;> simp only [not_or, BitVec.not_lt] at hw
        · exact hw.1
        · exact hw.2

/-- The dispatch of a pulse is the meaning of its operation. -/
theorem dispatchPulse_eq_exec (p : Pulse) (s : State) : dispatchPulse p s = exec p.instr s := by
  rcases p with ⟨_ | _, _ | _ | _ | _ | _ | _ | _ | _⟩ <;> rfl

/-- An edge step while stopped, and by what the classifier leaves. -/
theorem edgeStep_stopped {d : Direction} {t : Timestamp} {s : State} (h : s.run = false) :
    edgeStep d t s = .next s.stoppedStep := by
  simp [edgeStep, h]

theorem edgeStep_ended {d : Direction} {t : Timestamp} {s s' : State} (h : s.run = true)
    (hc : classifier d t s.beginStep = .ended s') : edgeStep d t s = .next s' := by
  simp [edgeStep, h, hc]

theorem edgeStep_symbol {d : Direction} {t : Timestamp} {s s' : State} {p : Pulse} (h : s.run = true)
    (hc : classifier d t s.beginStep = .symbol p s') : edgeStep d t s = dispatchPulse p s' := by
  simp [edgeStep, h, hc]

theorem exec_edge (d : Direction) (t : Timestamp) (s : State) : exec (edge d t) s = edgeStep d t s := by
  cases d <;> rfl

/-! ## The sixteen pulse operations in one piece -/

/-- Every carrier-on operation, as in R145. -/
theorem exec_on (w : Width) (s : State) :
    exec (Pulse.instr ⟨.carrierOn, w⟩) s =
      .next (((if w = .w900 ∧ s.wOff = some .w100 then (s.beginPulse ⟨.carrierOn, w⟩).append false false
        else s.beginPulse ⟨.carrierOn, w⟩).crossCheck w).setWOn w) := by
  by_cases h : s.wOff = some .w100
  · cases w
    case w900 => simp [Pulse.instr, exec, execOn900, h]
    all_goals rfl
  · cases w
    case w900 => simp [Pulse.instr, exec, execOn900, h]
    all_goals rfl

/-- The pairs a carrier-off operation appends by itself, as in R145; none for the marker pulse and the others. -/
def offPair (s : State) : Width → Option (Bool × Bool)
  | .w100 => if s.wOn = some .w100 ∧ s.wOff = some .w100 then some (false, true) else none
  | .w200 => some (true, false)
  | .w300 => some (true, true)
  | _ => none

/-- Every carrier-off operation but the marker pulse, as in R145. -/
theorem exec_off {w : Width} (hw : w ≠ .w500) (s : State) :
    exec (Pulse.instr ⟨.carrierOff, w⟩) s =
      .next ((match offPair s w with
        | some (a, b) => (s.beginPulse ⟨.carrierOff, w⟩).append a b
        | none => s.beginPulse ⟨.carrierOff, w⟩).setWOff w) := by
  cases w
  case w100 =>
    by_cases h : s.wOn = some .w100 ∧ s.wOff = some .w100
    · simp [Pulse.instr, exec, execOff100, offPair, h]
    · simp [Pulse.instr, exec, execOff100, offPair, h]
  case w500 => exact absurd rfl hw
  all_goals rfl

/-- The marker pulse: a minute close, then the width register. -/
theorem exec_off500 (s : State) :
    exec .off500 s = andThen (s.beginPulse ⟨.carrierOff, .w500⟩).closeMinute (fun s => s.setWOff .w500) := rfl

/-! ## Everything an operation can do -/

/-- What a carrier-on pulse of width `w` makes of a state: the first, expected and the second, unexpected. -/
def onExpected (s : State) (w : Width) : State :=
  { s with out := { cls := .sym w, pol := true, tick := true }, outValid := true, wOn := some w }

def onUnexpected (s : State) (w : Width) : State :=
  { s with
    out := { cls := .sym w, pol := true, unexp := true }, outValid := true, wOn := some w, bad := satInc8 s.bad }

/-- The three things a carrier-on pulse can do. -/
theorem exec_on_cases {w : Width} {s t : State} (h : exec (Pulse.instr ⟨.carrierOn, w⟩) s = .next t) :
    (unexpected w s.wOff = true ∧ t = onUnexpected s w) ∨
    (w ≠ .w900 ∧ unexpected w s.wOff = false ∧ t = onExpected s w) ∨
    (w = .w900 ∧ s.wOff = some .w100 ∧ unexpected w s.wOff = false ∧
      t = (((s.beginPulse ⟨.carrierOn, .w900⟩).append false false).raiseTick).setWOn .w900) := by
  rw [exec_on, Host.Outcome.next.injEq] at h
  subst h
  by_cases hw : w = .w900 ∧ s.wOff = some .w100
  · obtain ⟨rfl, h1⟩ := hw
    have hu : unexpected .w900 s.wOff = false := by rw [h1]; decide
    exact .inr (.inr ⟨rfl, h1, hu, by simp [h1, State.crossCheck, unexpected, Width.ms, widthMs, Width.code]⟩)
  · simp only [if_neg hw]
    rcases State.crossCheck_cases (s.beginPulse ⟨.carrierOn, w⟩) w with ⟨hu, hc⟩ | ⟨hu, hc⟩
    · exact .inl ⟨hu, by rw [hc]; rfl⟩
    · refine .inr (.inl ⟨?_, hu, by rw [hc]; rfl⟩)
      rintro rfl
      have h1 : s.wOff ≠ some .w100 := fun h => hw ⟨rfl, h⟩
      have hu' : unexpected .w900 s.wOff = false := hu
      revert hu' h1
      generalize s.wOff = v
      intro h1 hu'
      rcases v with _ | v
      · exact absurd hu' (by decide)
      · cases v <;> first | exact h1 rfl | exact absurd hu' (by decide)

/-- The three things a carrier-off pulse can do. -/
theorem exec_off_cases {w : Width} {s t : State} (h : exec (Pulse.instr ⟨.carrierOff, w⟩) s = .next t) :
    (w ≠ .w500 ∧ ∃ a b, offPair s w = some (a, b) ∧ t = ((s.beginPulse ⟨.carrierOff, w⟩).append a b).setWOff w) ∨
    (w ≠ .w500 ∧ offPair s w = none ∧ t = (s.beginPulse ⟨.carrierOff, w⟩).setWOff w) ∨
    (w = .w500 ∧ ∃ u, (s.beginPulse ⟨.carrierOff, .w500⟩).closeMinute = .next u ∧ t = u.setWOff .w500) := by
  by_cases hw : w = .w500
  · subst hw
    obtain ⟨u, hu, ht⟩ := andThen_eq_next.1 ((exec_off500 s).symm.trans h)
    exact .inr (.inr ⟨rfl, u, hu, ht.symm⟩)
  · rw [exec_off hw, Host.Outcome.next.injEq] at h
    subst h
    cases hp : offPair s w with
    | some p => exact .inl ⟨hw, p.1, p.2, rfl, rfl⟩
    | none => exact .inr (.inl ⟨hw, rfl, rfl⟩)

/-- An edge step that ends in the classifier, by its result. -/
inductive EdgeEnds (d : Direction) (t : Timestamp) (s : State) : State → Prop
  | ignored : s.skip = true →
      EdgeEnds d t s { s with skip := false, out := { cls := .ignored }, outValid := true }
  | seeded : s.skip = false → s.ts d.opp = 0 →
      EdgeEnds d t s { s.setTs d t with out := { cls := .incomplete }, outValid := true }
  | wrapped : s.skip = false → s.ts d.opp ≠ 0 → (t < s.tsRise ∨ t < s.tsFall) →
      EdgeEnds d t s { s with tsRise := 0, tsFall := 0, out := { cls := .incomplete }, outValid := true }
  | short : s.skip = false → s.ts d.opp ≠ 0 → s.tsRise ≤ t → s.tsFall ≤ t → (t - s.ts d.opp).toNat < 50000 →
      EdgeEnds d t s { s.setTs d t with skip := true, out := {}, outValid := true }
  | unclassified : s.skip = false → s.ts d.opp ≠ 0 → s.tsRise ≤ t → s.tsFall ≤ t →
      50000 ≤ (t - s.ts d.opp).toNat → classifyInterval (t - s.ts d.opp).toNat = none →
      EdgeEnds d t s
        { s.setTs d t with bad := satInc8 s.bad, out := { cls := .unclassified }, outValid := true }

/-- The stored timestamps do not change at the start of a step. -/
@[simp] theorem State.beginStep_ts (s : State) (d : Direction) : s.beginStep.ts d = s.ts d := by
  cases d <;> rfl

/-- Everything an edge taken with `run = 1` can do: end in the classifier, or be the operation of a pulse. -/
theorem exec_edge_cases {d : Direction} {t : Timestamp} {s : State} (hr : s.run = true) :
    (∃ u, exec (edge d t) s = .next u ∧ EdgeEnds d t s u) ∨
    (s.skip = false ∧ s.ts d.opp ≠ 0 ∧ s.tsRise ≤ t ∧ s.tsFall ≤ t ∧ ∃ w,
      classifyInterval (t - s.ts d.opp).toNat = some w ∧
      exec (edge d t) s = exec (Pulse.instr ⟨pulsePolarity s.pol d, w⟩) (s.beginStep.setTs d t)) := by
  rw [exec_edge]
  rcases classifier_cases d t s.beginStep with ⟨hs, hc⟩ | ⟨hs, h0, hc⟩ | ⟨hs, h0, hw, hc⟩ | ⟨hs, h0, h1, h2, hc⟩
  · exact .inl ⟨_, edgeStep_ended hr hc, .ignored hs⟩
  · refine .inl ⟨_, edgeStep_ended hr hc, ?_⟩
    have := EdgeEnds.seeded (d := d) (t := t) (s := s) hs (by simpa using h0)
    cases d <;> exact this
  · exact .inl ⟨_, edgeStep_ended hr hc, .wrapped hs (by simpa using h0) hw⟩
  · have h0' : s.ts d.opp ≠ 0 := by simpa using h0
    rcases measureInterval_cases d t s.beginStep with ⟨hd, hm⟩ | ⟨_, w, hw, hm⟩ | ⟨hd, hn, hm⟩
    · refine .inl ⟨_, edgeStep_ended hr (hc.trans hm), ?_⟩
      rw [State.beginStep_ts] at hd
      have := EdgeEnds.short (d := d) (t := t) (s := s) hs h0' h1 h2 hd
      cases d <;> exact this
    · refine .inr ⟨hs, h0', h1, h2, w, ?_, ?_⟩
      · rwa [State.beginStep_ts] at hw
      · rw [edgeStep_symbol hr (hc.trans hm), dispatchPulse_eq_exec]
        rfl
    · refine .inl ⟨_, edgeStep_ended hr (hc.trans hm), ?_⟩
      rw [State.beginStep_ts] at hd hn
      have := EdgeEnds.unclassified (d := d) (t := t) (s := s) hs h0' h1 h2 hd hn
      cases d <;> exact this

/-- Every operation is an edge, a control event or a pulse. -/
theorem instr_cases (i : Instr) :
    (∃ d t, i = edge d t) ∨ i = .wdog ∨ i = .stop ∨ i = .reset ∨ ∃ p : Pulse, i = p.instr := by
  cases i
  case edgeF t => exact .inl ⟨.falling, t, rfl⟩
  case edgeR t => exact .inl ⟨.rising, t, rfl⟩
  case wdog => exact .inr (.inl rfl)
  case stop => exact .inr (.inr (.inl rfl))
  case reset => exact .inr (.inr (.inr (.inl rfl)))
  case off100 => exact .inr (.inr (.inr (.inr ⟨⟨.carrierOff, .w100⟩, rfl⟩)))
  case off200 => exact .inr (.inr (.inr (.inr ⟨⟨.carrierOff, .w200⟩, rfl⟩)))
  case off300 => exact .inr (.inr (.inr (.inr ⟨⟨.carrierOff, .w300⟩, rfl⟩)))
  case off400 => exact .inr (.inr (.inr (.inr ⟨⟨.carrierOff, .w400⟩, rfl⟩)))
  case off500 => exact .inr (.inr (.inr (.inr ⟨⟨.carrierOff, .w500⟩, rfl⟩)))
  case off700 => exact .inr (.inr (.inr (.inr ⟨⟨.carrierOff, .w700⟩, rfl⟩)))
  case off800 => exact .inr (.inr (.inr (.inr ⟨⟨.carrierOff, .w800⟩, rfl⟩)))
  case off900 => exact .inr (.inr (.inr (.inr ⟨⟨.carrierOff, .w900⟩, rfl⟩)))
  case on100 => exact .inr (.inr (.inr (.inr ⟨⟨.carrierOn, .w100⟩, rfl⟩)))
  case on200 => exact .inr (.inr (.inr (.inr ⟨⟨.carrierOn, .w200⟩, rfl⟩)))
  case on300 => exact .inr (.inr (.inr (.inr ⟨⟨.carrierOn, .w300⟩, rfl⟩)))
  case on400 => exact .inr (.inr (.inr (.inr ⟨⟨.carrierOn, .w400⟩, rfl⟩)))
  case on500 => exact .inr (.inr (.inr (.inr ⟨⟨.carrierOn, .w500⟩, rfl⟩)))
  case on700 => exact .inr (.inr (.inr (.inr ⟨⟨.carrierOn, .w700⟩, rfl⟩)))
  case on800 => exact .inr (.inr (.inr (.inr ⟨⟨.carrierOn, .w800⟩, rfl⟩)))
  case on900 => exact .inr (.inr (.inr (.inr ⟨⟨.carrierOn, .w900⟩, rfl⟩)))

/-- No pulse operation is an event. -/
theorem pulse_ne_event (p : Pulse) : p.instr ≠ .reset ∧ p.instr ≠ .wdog ∧ p.instr ≠ .stop ∧ ∀ d t, p.instr ≠ edge d t := by
  rcases p with ⟨_ | _, _ | _ | _ | _ | _ | _ | _ | _⟩ <;> refine ⟨by decide, by decide, by decide, fun d t => ?_⟩ <;>
    cases d <;> simp [Pulse.instr, edge]

end Sys2Proof.Machine
end

