-- ==== Sys2Proof/Laws/Exec.lean ====
section
/-! SUPPORT. The inversion of `exec`: everything an operation that completes can have done. Claims over all operations
are derived from these and unfold no meaning. -/

namespace Sys2Proof.Machine

/-- What every pulse operation leaves alone, and the two fields of the record that are its dispatch word's. -/
theorem pulse_leaves {p : Pulse} {s t : State} (h : exec p.instr s = .next t) :
    t.out.cls = .sym p.width ∧ t.out.pol = decide (p.pol = .carrierOn) ∧ t.out.wd = false ∧ t.run = s.run ∧
      t.skip = s.skip ∧ t.pol = s.pol ∧ t.century = s.century ∧ t.tsRise = s.tsRise ∧ t.tsFall = s.tsFall ∧
      t.outValid = true ∧ t.inbox = s.inbox := by
  rcases p with ⟨_ | _, w⟩
  · rcases exec_off_cases h with ⟨_, a, b, _, rfl⟩ | ⟨_, _, rfl⟩ | ⟨rfl, u, hu, rfl⟩
    · simp
    · simp
    · rcases State.closeMinute_cases hu with ⟨_, rfl⟩ | ⟨_, c, g, _, rfl⟩ | ⟨_, _, _, rfl⟩ <;> simp
  · rcases exec_on_cases h with ⟨_, rfl⟩ | ⟨_, _, rfl⟩ | ⟨rfl, _, _, rfl⟩ <;> simp [onExpected, onUnexpected]

/-- The six things an operation that completes can have done: a step while stopped, one of the control events, an edge
that ends in the classifier, or a pulse, on its own or inside an edge step. -/
theorem exec_elim {i : Instr} {s t : State} {motive : Prop} (h : exec i s = .next t)
    (hstopped : s.run = false → ((∃ d x, i = edge d x) ∨ i = .wdog ∨ i = .stop) → t = s.stoppedStep → motive)
    (hreset : i = .reset → t = { s with
      tsRise := 0, tsFall := 0, skip := false, wOn := none, wOff := none, n := 0, bad := 0, run := true,
      fst := { code := .noFrame, pg := 0 }, dt := 0, dtOk := false, out := {}, outValid := true } → motive)
    (hwdog : i = .wdog → s.run = true → t = { s with
      tsRise := 0, tsFall := 0, skip := false, wOn := none, wOff := none, n := 0, bad := 0,
      out := { wd := true }, outValid := true } → motive)
    (hstop : i = .stop → s.run = true → t = { s with run := false, out := {}, outValid := true } → motive)
    (hedge : ∀ d x, i = edge d x → s.run = true → EdgeEnds d x s t → motive)
    (hpulse : ∀ (p : Pulse) (s' : State),
      (s' = s ∧ i = p.instr ∨
        ∃ d x, i = edge d x ∧ s.run = true ∧ s.skip = false ∧ s' = s.beginStep.setTs d x) →
      exec p.instr s' = .next t → motive) : motive := by
  rcases instr_cases i with ⟨d, x, rfl⟩ | rfl | rfl | rfl | ⟨p, rfl⟩
  · cases hr : s.run
    · rw [exec_edge, edgeStep_stopped hr] at h
      exact hstopped hr (.inl ⟨d, x, rfl⟩) (by simpa using h.symm)
    · rcases exec_edge_cases (d := d) (t := x) hr with ⟨u, hu, he⟩ | ⟨hs, _, _, _, w, _, he⟩
      · rw [hu, Host.Outcome.next.injEq] at h
        exact hedge d x rfl hr (h ▸ he)
      · exact hpulse _ _ (.inr ⟨d, x, rfl, hr, hs, rfl⟩) (he.symm.trans h)
  · cases hr : s.run
    · simp only [exec, execWdog, hr, Bool.false_eq_true, if_false, Host.Outcome.next.injEq] at h
      exact hstopped hr (.inr (.inl rfl)) h.symm
    · simp only [exec, execWdog, hr, if_true, Host.Outcome.next.injEq] at h
      exact hwdog rfl hr h.symm
  · cases hr : s.run
    · simp only [exec, execStop, hr, Bool.false_eq_true, if_false, Host.Outcome.next.injEq] at h
      exact hstopped hr (.inr (.inr rfl)) h.symm
    · simp only [exec, execStop, hr, if_true, Host.Outcome.next.injEq] at h
      exact hstop rfl hr h.symm
  · simp only [exec, execReset, Host.Outcome.next.injEq] at h
    exact hreset rfl h.symm
  · exact hpulse p s (.inl ⟨rfl, rfl⟩) h

/-- What a step that completes did: it idled, or it ran the decoded operation of the next input. -/
theorem step_cases {s t : State} (h : step s = .next t) :
    (s.inbox = [] ∧ t = s.idle) ∨
    (∃ x rest i, s.inbox = x :: rest ∧ decode x.offer = .ok i ∧ s.polarityClash x = false ∧
      exec i (s.takeInput x rest) = .next t) := by
  unfold step at h
  split at h
  · exact .inl ⟨‹_›, by simpa using h.symm⟩
  · split at h
    · simp at h
    · split at h
      · simp at h
      · rename_i hx
        exact .inr ⟨_, _, _, ‹_›, ‹_›, by simpa using hx, h⟩

end Sys2Proof.Machine
end

