-- ==== Sys2Proof/Laws/PerInstr.lean ====
section
/-! SUPPORT. Laws stated per operation: every operation has a well-formed word (R72, R73, R75, R83 (e)). -/

namespace Sys2Proof.Laws.EncodeWf

/-- The word of an operation is well-formed. -/
def Statement : Instr → Prop := fun i => (encode i).wf = true

theorem edgeF (ts : Timestamp) : Statement (.edgeF ts) := rfl
theorem edgeR (ts : Timestamp) : Statement (.edgeR ts) := rfl
theorem wdog : Statement .wdog := rfl
theorem stop : Statement .stop := rfl
theorem reset : Statement .reset := rfl
theorem off100 : Statement .off100 := rfl
theorem off200 : Statement .off200 := rfl
theorem off300 : Statement .off300 := rfl
theorem off400 : Statement .off400 := rfl
theorem off500 : Statement .off500 := rfl
theorem off700 : Statement .off700 := rfl
theorem off800 : Statement .off800 := rfl
theorem off900 : Statement .off900 := rfl
theorem on100 : Statement .on100 := rfl
theorem on200 : Statement .on200 := rfl
theorem on300 : Statement .on300 := rfl
theorem on400 : Statement .on400 := rfl
theorem on500 : Statement .on500 := rfl
theorem on700 : Statement .on700 := rfl
theorem on800 : Statement .on800 := rfl
theorem on900 : Statement .on900 := rfl

end Sys2Proof.Laws.EncodeWf
end

