-- ==== Sys2Proof/Tests/Slice0.lean ====
section
/-! SUPPORT. Tests. Expected values come from the spec: the encoding tables of `30_encoding.md`, the vectors and programs
of `95_test_vectors.md`, and hand calculation from the rules where a test says so. The theorems `witness_<statement>` show,
for each statement of `Certificates/Slice0/Obligations.lean` that has hypotheses, concrete values that meet them. -/

open Sys2Proof Sys2Proof.Machine

namespace Sys2Proof.Tests

/-! ## Helpers -/

/-- The outcome is a next state. -/
def isNext : Result → Bool
  | .next _ => true
  | _ => false

/-- The next state of an outcome. -/
def nextOf : Result → State
  | .next s => s
  | _ => State.reset

theorem eq_nextOf {r : Result} (h : isNext r = true) : r = .next (nextOf r) := by
  cases r <;> first | rfl | cases h

/-- The reason of a refusal. -/
def refusalOf : Result → Option Refusal
  | .refused r => some r
  | _ => none

/-- The output record of one operation, as its word. -/
def outWord (i : Instr) (s : State) : OutWord := (nextOf (exec i s)).out.word

/-- A channel with ones at the listed indices. -/
def ones (l : List Nat) : Memory := l.map (fun i => (i, 1))

/-- The start state of the vectors V1: `ts_fall = 1,000,000`, `ts_rise = 400,000`. -/
def timed : State := { State.reset with tsFall := 1000000, tsRise := 400000 }

/-- The same with rising and falling exchanged. -/
def timedF : State := { State.reset with tsRise := 1000000, tsFall := 400000 }

/-- A minute in progress: the start state of V21 and V22 with chosen widths. -/
def minute (wOn wOff : Option Width) : State := { State.reset with n := 7, bad := 1, wOn := wOn, wOff := wOff }

/-- The frame of V30, with 59 pairs appended. -/
def frame30 : State := { State.reset with
  n := 59, wOn := some .w900, wOff := some .w100
  bufA := ones [18, 22, 23, 26, 27, 30, 32, 34, 35, 39, 41, 45, 46, 52, 53, 54, 55, 56, 57]
  bufB := ones [56, 57] }

/-- The frame of V35: that of V30 with `B[53] = 1`. -/
def frame35 : State := { frame30 with bufB := ones [53, 56, 57] }

/-- 59 pairs of zeros (V24). -/
def zeros59 : State := { State.reset with n := 59 }

/-- What the environment offers to `timed` next. -/
def offered (o : Offer) : Input := { pol := true, century := 21, offer := o }

/-! ## Well-formedness: each check refuses an ill-formed term -/

theorem test_wf_code_zero_refused : wfPulseWord 0x00#5 = false := by decide
theorem test_wf_code_six_refused : wfPulseWord 0x06#5 = false ∧ wfPulseWord 0x16#5 = false := by decide
theorem test_wf_codes_above_nine_refused :
    ([0x0A, 0x0B, 0x0C, 0x0D, 0x0E, 0x0F].map fun c => legalPulseCode (BitVec.ofNat 4 c)) =
      List.replicate 6 false := by decide
theorem test_wf_pulse_offer_refused : (Offer.pulse 0x1F#5).wf = false := by decide
theorem test_wf_century_zero_refused : wfCentury 0 = false ∧ wfCentury 1 = true ∧ wfCentury 255 = true := by decide
theorem test_wf_buffer_refused :
    Memory.wf [(60, 1)] = false ∧ Memory.wf [(3, 0)] = false ∧ Memory.wf [(3, 1), (3, 1)] = false ∧
      Memory.wf [(4, 1), (3, 1)] = false := by decide

/-! ## Decoding: words written out from R72, R73 and R75 -/

/-- The event words of P1, P2 and P4, and the zero timestamp. -/
theorem test_decode_events :
    decodeTableWord 34 0x0000F4240 = some (.edgeF 1000000) ∧ decodeTableWord 34 0x10016E360 = some (.edgeR 1500000) ∧
      decodeTableWord 34 0x0FFF13D80 = some (.edgeF 4294000000) ∧ decodeTableWord 34 0x000000000 = some (.edgeF 0) ∧
      decodeTableWord 34 0x200000000 = some .wdog ∧ decodeTableWord 34 0x300000000 = some .stop := by decide

/-- `ts` of `WDOG` and `STOP` is ignored (R71). -/
theorem test_decode_ignored_timestamp :
    decodeTableWord 34 0x2FFFFFFFF = some .wdog ∧ decodeTableWord 34 0x312345678 = some .stop := by decide

theorem test_decode_reset : decodeTableWord 0 0 = some .reset := by decide

theorem test_decode_off :
    [0x01, 0x02, 0x03, 0x04, 0x05, 0x07, 0x08, 0x09].map (decodeTableWord 5) =
      [some .off100, some .off200, some .off300, some .off400, some .off500, some .off700, some .off800, some .off900] := by
  decide

theorem test_decode_on :
    [0x11, 0x12, 0x13, 0x14, 0x15, 0x17, 0x18, 0x19].map (decodeTableWord 5) =
      [some .on100, some .on200, some .on300, some .on400, some .on500, some .on700, some .on800, some .on900] := by
  decide

theorem test_decode_rejects_by_name :
    decode (.pulse 0x06#5) = .error (.reservedPulseCode 0x06#5) ∧ decodeBytes [0x20] = .error .bitsAboveWord ∧
      decodeBytes [0, 0, 0, 0, 4] = .error .bitsAboveWord ∧ decodeBytes [0, 0] = .error (.noSuchLength 2) := by
  refine ⟨rfl, rfl, rfl, rfl⟩

/-- The trace text of P1 and P4. -/
theorem test_trace_text :
    Trace.readLine "R 1500000   # SECM".toList = some (.event (.rise 1500000)) ∧
      Trace.readLine "F 0xF4240".toList = some (.event (.fall 1000000)) ∧
      Trace.readLine "SEC01".toList = some (.pseudo .sec01) ∧ Trace.readLine "# comment".toList = some .blank ∧
      Trace.readLine "R 4294967296".toList = none ∧
      Trace.readLine "AT 4294967295".toList = some (.pseudo (.setCursor 4294967295)) := by decide +kernel

/-! ## Running one table word from reset -/

theorem test_step_runs_the_offered_word :
    nextOf (step (State.reset.withFetchWord 34 0x0000F4240)) =
      { State.reset with tsFall := 1000000, out := { cls := .incomplete } } := by decide

theorem test_step_runs_reset :
    nextOf (step ({ timed with bad := 3 }.withFetchWord 0 0)) = State.reset := by decide

/-- R194: an event offered while `rst` is asserted is held off, `ev_ready = 0`. -/
theorem test_ports_event_behind_reset :
    let p := State.ports { timed with inbox := [offered .rst, offered (.event 0x200000000)] }
    p.evValid = true ∧ p.evReady = false := by decide

/-! ## The classifier -/

/-- V1: the results of a rising edge after the listed intervals. -/
theorem test_edgeR_intervals :
    [0, 49999, 50000, 64999, 65000, 135000, 135001, 464999, 465000, 465001, 535000, 535001, 600000, 935000, 935001,
      4293967295].map (fun d => (outWord (.edgeR (BitVec.ofNat 32 (1000000 + d))) timed).extractLsb' 12 4) =
      [0x0, 0x0, 0xF, 0xF, 0x1, 0x1, 0xF, 0xF, 0x5, 0x5, 0x5, 0xF, 0xF, 0x9, 0xF, 0xF] := by decide +kernel

/-- R110's example, with what it writes: `OFF.100`. -/
theorem test_edgeR_dispatches_off100 :
    nextOf (exec (.edgeR 1100000) timed) =
      { timed with tsRise := 1100000, wOff := some .w100, out := { cls := .sym .w100 } } := by decide

/-- R111's example: `ON.900` after a 100 ms carrier-off pulse. -/
theorem test_edgeF_dispatches_on900 :
    outWord (.edgeF 2000000) { State.reset with tsRise := 1100000, tsFall := 1000000, wOff := some .w100 } = 0x9D00 := by
  decide

/-- V4: the wrap is seen through either register. -/
theorem test_edgeF_wrap :
    nextOf (exec (.edgeF 4500000) { State.reset with tsRise := 4000000, tsFall := 5000000 }) =
      { State.reset with out := { cls := .incomplete } } ∧
      outWord (.edgeF 4500000) { State.reset with tsRise := 5000000, tsFall := 4000000 } = 0xB000 := by decide

/-! ## Control events -/

/-- V60. -/
theorem test_wdog :
    let s : State := { State.reset with
      n := 31, bad := 2, wOn := some .w800, wOff := some .w200, skip := true, tsRise := 5, tsFall := 9,
      fst := { code := .ok, pg := 0 }, dtOk := true }
    nextOf (exec .wdog s) =
      { State.reset with fst := { code := .ok, pg := 0 }, dtOk := true, out := { wd := true } } ∧
      outWord .wdog s = 0x0001 := by decide

/-- V61. -/
theorem test_stop :
    outWord .stop timed = 0x0000 ∧ (nextOf (exec .stop timed)).run = false ∧
      outWord .stop { timed with run := false } = 0xD000 ∧ outWord .wdog { timed with run := false } = 0xD000 := by decide

/-- V62: the cells stay (R190). -/
theorem test_reset :
    nextOf (exec .reset { frame35 with run := false, bad := 9, fst := { code := .parity, pg := 2 } }) =
      { State.reset with bufA := frame35.bufA, bufB := frame35.bufB } := by decide

/-! ## The assembler (V21, V22, V24, V25) -/

theorem test_off100_tri_transition :
    nextOf (exec .off100 (minute (some .w100) (some .w100))) =
      { minute (some .w100) (some .w100) with
        n := 8, bufB := [(7, 1)], out := { cls := .sym .w100, app := true, pb := true } } := by decide

theorem test_off100_no_append :
    outWord .off100 (minute (some .w900) (some .w100)) = 0x1000 ∧
      outWord .off100 (minute (some .w100) (some .w200)) = 0x1000 ∧ outWord .off100 (minute none none) = 0x1000 := by decide

theorem test_off200 :
    nextOf (exec .off200 (minute none none)) =
      { minute none (some .w200) with
        n := 8, bufA := [(7, 1)], out := { cls := .sym .w200, app := true, pa := true } } := by decide

/-- V25: at capacity nothing is stored. -/
theorem test_off200_at_capacity :
    nextOf (exec .off200 { State.reset with n := 60 }) =
      { State.reset with n := 61, wOff := some .w200, out := { cls := .sym .w200, app := true, pa := true } } := by decide

theorem test_off300 :
    nextOf (exec .off300 (minute none none)) =
      { minute none (some .w300) with
        n := 8, bufA := [(7, 1)], bufB := [(7, 1)],
        out := { cls := .sym .w300, app := true, pa := true, pb := true } } := by decide

theorem test_off400 : outWord .off400 (minute none none) = 0x4000 ∧
    (nextOf (exec .off400 (minute none none))).wOff = some .w400 := by decide

/-- V30: the closing marker pulse of P2. -/
theorem test_off500_decodes :
    nextOf (exec .off500 frame30) = { frame30 with
      n := 0, wOff := some .w500, fst := { code := .ok, pg := 0 }, dt := 0x01F9CC7C38F01, dtOk := true,
      out := { cls := .sym .w500, fr := .ok } } := by decide +kernel

/-- V24, V35 and V44's parity failure: the other frame results. -/
theorem test_off500_results :
    outWord .off500 State.reset = 0x5010 ∧ outWord .off500 { State.reset with n := 58 } = 0x5018 ∧
      outWord .off500 zeros59 = 0x5020 ∧ outWord .off500 { State.reset with n := 60 } = 0x5018 ∧
      outWord .off500 { State.reset with n := 61 } = 0x5010 ∧ outWord .off500 { frame30 with bad := 1 } = 0x5010 ∧
      outWord .off500 frame35 = 0x5028 ∧ outWord .off500 { frame30 with bufB := ones [57] } = 0x502E := by decide +kernel

theorem test_off700 : outWord .off700 (minute none none) = 0x7000 ∧
    (nextOf (exec .off700 (minute none none))).wOff = some .w700 := by decide

theorem test_off800 : outWord .off800 (minute none none) = 0x8000 ∧
    (nextOf (exec .off800 (minute none none))).wOff = some .w800 := by decide

theorem test_off900 : outWord .off900 (minute none none) = 0x9000 ∧
    (nextOf (exec .off900 (minute none none))).wOff = some .w900 := by decide

theorem test_on100 : outWord .on100 (minute none (some .w900)) = 0x1C00 ∧
    outWord .on100 (minute none (some .w100)) = 0x1A00 := by decide

theorem test_on200 : outWord .on200 (minute none (some .w800)) = 0x2C00 ∧
    outWord .on200 (minute none (some .w200)) = 0x2A00 := by decide

theorem test_on300 : outWord .on300 (minute none (some .w700)) = 0x3C00 ∧
    outWord .on300 (minute none (some .w300)) = 0x3A00 := by decide

theorem test_on400 : outWord .on400 (minute none (some .w500)) = 0x4A00 ∧
    (nextOf (exec .on400 (minute none none))).bad = 2 := by decide

theorem test_on500 : outWord .on500 (minute none (some .w500)) = 0x5C00 ∧
    outWord .on500 (minute none (some .w400)) = 0x5A00 := by decide

theorem test_on700 : outWord .on700 (minute none (some .w300)) = 0x7C00 ∧
    outWord .on700 (minute none (some .w100)) = 0x7A00 ∧
    (nextOf (exec .on700 (minute none (some .w100)))).bad = 2 := by decide

theorem test_on800 : outWord .on800 (minute none (some .w200)) = 0x8C00 ∧
    outWord .on800 (minute none (some .w300)) = 0x8A00 := by decide

theorem test_on900 : outWord .on900 (minute none (some .w100)) = 0x9D00 ∧
    outWord .on900 (minute none (some .w500)) = 0x9A00 ∧
    (nextOf (exec .on900 (minute none (some .w100)))).wOn = some .w900 := by decide

/-- V8: `bad` saturates. -/
theorem test_bad_saturates : (nextOf (exec .on400 { State.reset with bad := 255 })).bad = 255 := by decide

/-- V50. -/
theorem test_bcd :
    bcd [true, false, true, true, false, false, true] = 59 ∧ bcd [false, false, true, true, false] = 6 ∧
      bcd (List.replicate 8 true) = 165 ∧ bcd [true, true, true] = 7 ∧
      bcdEncode 12 5 = some [true, false, false, true, false] ∧ bcdEncode 10 4 = none := by decide

/-- R34 and U7: the reserved `CENTURY` is refused at a decode, and a discarded minute is not. -/
theorem test_century_zero :
    refusalOf (exec .off500 { frame30 with century := 0 }) = some .centuryReserved ∧
      outWord .off500 { State.reset with century := 0 } = 0x5010 := by decide +kernel

/-! ## Witnesses: the hypotheses of the statements can be met -/

theorem witness_EncodeInvertsDecode : wfPulseWord 0x19#5 = true ∧ wfPulseWord 0x0A#5 = false := by decide

theorem witness_EventWordsByMatchAndMask :
    0x0FFFFFFFF#34 &&& 0x300000000#34 = 0x000000000#34 ∧ 0x1FFFFFFFF#34 &&& 0x300000000#34 = 0x100000000#34 ∧
      0x2FFFFFFFF#34 &&& 0x300000000#34 = 0x200000000#34 ∧ 0x3FFFFFFFF#34 &&& 0x300000000#34 = 0x300000000#34 := by decide

theorem witness_SecondsExpandToEdges : 0 + 1000000 < 2 ^ 32 ∧ 4293967295 + 1000000 < 2 ^ 32 := by decide

/-- A next input that decodes, in each case of the condition on `POL`: the level of the last input; and a new level at
a reset, while stopped, and while the registers of R33 are zero. -/
theorem witness_StepRunsDecodedInput :
    let x : Input := offered (.event 0x100200B20)
    let y : Input := { x with pol := false }
    let r : Input := { y with offer := .rst }
    let runs := fun (s : State) (x : Input) => (∃ i, s.inbox = [x] ∧ decode x.offer = .ok i) ∧
      (x.pol = s.pol ∨ x.offer = .rst ∨ s.run = false ∨
        (s.tsRise = 0 ∧ s.tsFall = 0 ∧ s.wOn = none ∧ s.wOff = none ∧ s.n = 0))
    runs { timed with inbox := [x] } x ∧ runs { timed with inbox := [r] } r ∧
      runs { timed with run := false, inbox := [y] } y ∧ runs { State.reset with inbox := [y] } y :=
  ⟨⟨⟨_, rfl, rfl⟩, by decide⟩, ⟨⟨_, rfl, rfl⟩, by decide⟩, ⟨⟨_, rfl, rfl⟩, by decide⟩, ⟨_, rfl, rfl⟩, by decide⟩

/-- A row of each code table. -/
theorem witness_OutputRecordLayout :
    (ClsResult.ignored, 0xA#4) ∈ [(ClsResult.none, 0x0#4), (.sym .w100, 0x1#4), (.sym .w200, 0x2#4), (.sym .w300, 0x3#4),
      (.sym .w400, 0x4#4), (.sym .w500, 0x5#4), (.sym .w700, 0x7#4), (.sym .w800, 0x8#4), (.sym .w900, 0x9#4),
      (.ignored, 0xA#4), (.incomplete, 0xB#4), (.stopped, 0xD#4), (.unclassified, 0xF#4)] ∧
    (FrameResult.parity, 5#3) ∈ [(FrameResult.noFrame, 0#3), (.ok, 1#3), (.discarded, 2#3), (.length, 3#3), (.marker, 4#3),
      (.parity, 5#3)] := by decide

theorem witness_PortsShowTheLastRecord :
    (FrameResult.parity, 5#3) ∈ [(FrameResult.noFrame, 0#3), (.ok, 1#3), (.discarded, 2#3), (.length, 3#3), (.marker, 4#3),
      (.parity, 5#3)] := by decide

theorem witness_StepIdlesWithoutInput : timed.inbox = [] := by decide

/-- A dispatch word of a reserved code, and a new level of `POL` with an edge in the middle of a minute. -/
theorem witness_StepRefusesWhatIsReserved :
    let y : Input := { offered (.event 0x100200B20) with pol := false }
    ({ timed with inbox := [offered (.pulse 0x06#5)] } : State).inbox = [offered (.pulse 0x06#5)] ∧
      wfPulseWord 0x06#5 = false ∧
      ∀ s ∈ [{ timed with inbox := [y] }, { frame30 with inbox := [y] }], s.inbox = [y] ∧
        (∃ i, decode y.offer = .ok i) ∧ y.offer ≠ .rst ∧ s.run = true ∧ y.pol ≠ s.pol ∧
        (s.tsRise ≠ 0 ∨ s.tsFall ≠ 0 ∨ s.wOn ≠ none ∨ s.wOff ≠ none ∨ s.n ≠ 0) := by
  refine ⟨rfl, by decide, ?_⟩
  intro s hs
  simp only [List.mem_cons, List.not_mem_nil, or_false] at hs
  rcases hs with rfl | rfl
  all_goals exact ⟨rfl, ⟨_, rfl⟩, by decide⟩

/-- A state in the middle of a minute has the invariant, and a step runs from it. -/
theorem witness_StepKeepsTheInvariant :
    ({ timed with bad := 1, inbox := [offered (.event 0x10010C8E0)] } : State).Inv ∧
      isNext (step { timed with bad := 1, inbox := [offered (.event 0x10010C8E0)] }) = true := by
  refine ⟨?_, by decide⟩
  constructor
  case dt_range => constructor <;> decide
  all_goals decide

theorem witness_ResetInstallsTheResetValues :
    ∃ (i : Instr) (s t : State), exec i s = .next t ∧ s.run = false ∧ t.run = true :=
  ⟨.reset, { timed with run := false }, _, rfl, rfl, rfl⟩

theorem witness_WatchdogClearsTheDecoder : timed.run = true ∧ ({ timed with run := false } : State).run = false := by decide

theorem witness_StopClearsRun : timed.run = true ∧ ({ timed with run := false } : State).run = false := by decide

theorem witness_EventsWhileStoppedChangeNothing :
    ({ timed with run := false } : State).run = false ∧ (∃ d t, Instr.edgeR 62000000 = edge d t) :=
  ⟨rfl, .rising, _, rfl⟩

/-- P4: `STOP`, then an edge, `WDOG` and `STOP`. -/
theorem witness_StopIsFinalUntilReset :
    isNext (exec .stop timed) = true ∧
      ∀ i ∈ [Instr.edgeR 62000000, .wdog, .stop], (∃ d t, i = edge d t) ∨ i = .wdog ∨ i = .stop := by
  refine ⟨by decide, ?_⟩
  simp only [List.mem_cons, List.not_mem_nil, or_false]
  rintro i (rfl | rfl | rfl)
  exacts [.inl ⟨.rising, _, rfl⟩, .inr (.inl rfl), .inr (.inr rfl)]

theorem witness_SkippedEdgeIsIgnored :
    ({ timed with skip := true } : State).run = true ∧ ({ timed with skip := true } : State).skip = true := by decide

theorem witness_FirstEdgeSeeds :
    State.reset.run = true ∧ State.reset.skip = false ∧ State.reset.tsFall = 0 ∧ State.reset.tsRise = 0 := by decide

/-- V4, and the boundary one below the stored timestamp. -/
theorem witness_EarlierEdgeIsAWrap :
    timed.run = true ∧ timed.skip = false ∧ timed.ts Direction.rising.opp ≠ 0 ∧
      ((999999 : Timestamp).toNat < timed.tsRise.toNat ∨ (999999 : Timestamp).toNat < timed.tsFall.toNat) := by decide

/-- The interval 49,999 for either direction. -/
theorem witness_ShortIntervalSetsTheSkipMark :
    (timed.run = true ∧ timed.skip = false ∧ timed.tsRise.toNat ≤ (1049999 : Timestamp).toNat ∧
      timed.tsFall.toNat ≤ (1049999 : Timestamp).toNat ∧ timed.tsFall ≠ 0 ∧
      (1049999 : Timestamp).toNat - timed.tsFall.toNat < 50000) ∧
    (timedF.run = true ∧ timedF.skip = false ∧ timedF.tsRise.toNat ≤ (1049999 : Timestamp).toNat ∧
      timedF.tsFall.toNat ≤ (1049999 : Timestamp).toNat ∧ timedF.tsRise ≠ 0 ∧
      (1049999 : Timestamp).toNat - timedF.tsRise.toNat < 50000) := by decide

theorem witness_WindowsAreDisjoint : ∀ inclusive : Bool, withinWindow inclusive 465001 .w500 = true := by decide

/-- Every range of R108 at both ends. -/
theorem witness_UnclassifiedIntervalCountsABadPacket :
    timed.run = true ∧ timed.skip = false ∧ timed.ts Direction.rising.opp ≠ 0 ∧
      ∀ delta ∈ [50000, 64999, 135001, 164999, 235001, 264999, 335001, 364999, 435001, 464999, 535001, 664999, 735001,
        764999, 835001, 864999, 935001, 4293967295],
        timed.tsRise.toNat ≤ (BitVec.ofNat 32 (1000000 + delta)).toNat ∧
        timed.tsFall.toNat ≤ (BitVec.ofNat 32 (1000000 + delta)).toNat ∧
        delta = (BitVec.ofNat 32 (1000000 + delta)).toNat - (timed.ts Direction.rising.opp).toNat ∧
        (50000 ≤ delta ∧ delta ≤ 64999 ∨ 135001 ≤ delta ∧ delta ≤ 164999 ∨ 235001 ≤ delta ∧ delta ≤ 264999 ∨
          335001 ≤ delta ∧ delta ≤ 364999 ∨ 435001 ≤ delta ∧ delta ≤ 464999 ∨ 535001 ≤ delta ∧ delta ≤ 664999 ∨
          735001 ≤ delta ∧ delta ≤ 764999 ∨ 835001 ≤ delta ∧ delta ≤ 864999 ∨ 935001 ≤ delta) := by decide +kernel

/-- The window of 500 ms at both ends, for either direction. -/
theorem witness_ClassifiedEdgeRunsItsPulse :
    ∀ delta ∈ [465000, 535000],
      (timed.run = true ∧ timed.skip = false ∧ timed.tsRise.toNat ≤ (BitVec.ofNat 32 (1000000 + delta)).toNat ∧
        timed.tsFall.toNat ≤ (BitVec.ofNat 32 (1000000 + delta)).toNat ∧ timed.tsFall ≠ 0 ∧
        1000 * Width.w500.ms ≤ (BitVec.ofNat 32 (1000000 + delta)).toNat - timed.tsFall.toNat + 35000 ∧
        (BitVec.ofNat 32 (1000000 + delta)).toNat - timed.tsFall.toNat ≤ 1000 * Width.w500.ms + 35000) ∧
      (timedF.run = true ∧ timedF.skip = false ∧ timedF.tsRise.toNat ≤ (BitVec.ofNat 32 (1000000 + delta)).toNat ∧
        timedF.tsFall.toNat ≤ (BitVec.ofNat 32 (1000000 + delta)).toNat ∧ timedF.tsRise ≠ 0 ∧
        1000 * Width.w500.ms ≤ (BitVec.ofNat 32 (1000000 + delta)).toNat - timedF.tsRise.toNat + 35000 ∧
        (BitVec.ofNat 32 (1000000 + delta)).toNat - timedF.tsRise.toNat ≤ 1000 * Width.w500.ms + 35000) := by
  decide +kernel

theorem witness_ClassifiedEdgeCompletes :
    timed.run = true ∧ timed.skip = false ∧ timed.ts Direction.rising.opp ≠ 0 ∧
      timed.tsRise.toNat ≤ (1100000 : Timestamp).toNat ∧ timed.tsFall.toNat ≤ (1100000 : Timestamp).toNat ∧
      1000 * Width.w100.ms ≤ (1100000 : Timestamp).toNat - (timed.ts Direction.rising.opp).toNat + 35000 ∧
      (1100000 : Timestamp).toNat - (timed.ts Direction.rising.opp).toNat ≤ 1000 * Width.w100.ms + 35000 ∧
      timed.century ≠ 0 := by decide

theorem witness_TimestampZeroStaysUnset : timed.run = true ∧ timed.skip = false := by decide

/-- V20, cut to three edges: the trace and the same trace 999,999 us earlier. -/
theorem witness_TranslationInvariance :
    let es : List (Direction × Timestamp) := [(.falling, 1000000), (.rising, 1500000), (.falling, 2000000)]
    let fs : List (Direction × Timestamp) := [(.falling, 1), (.rising, 500001), (.falling, 1000001)]
    Ascending es ∧ Ascending fs ∧ es.map Prod.fst = fs.map Prod.fst ∧ gaps es = gaps fs := by
  unfold Ascending
  decide

theorem witness_Off100AppendsOnTheTriTransition :
    (minute (some .w100) (some .w100)).bufA.wf = true ∧ (minute (some .w100) (some .w100)).bufB.wf = true ∧
      ((minute (some .w100) (some .w100)).wOn = some .w100 ∧ (minute (some .w100) (some .w100)).wOff = some .w100) ∧
      ¬ ((minute (some .w100) (some .w200)).wOn = some .w100 ∧ (minute (some .w100) (some .w200)).wOff = some .w100) := by
  decide

theorem witness_Off200AppendsOneZero : frame30.bufA.wf = true ∧ frame30.bufB.wf = true := by decide

theorem witness_Off300AppendsOneOne : frame30.bufA.wf = true ∧ frame30.bufB.wf = true := by decide

theorem witness_OtherOffPulsesOnlyStoreTheirWidth :
    (Instr.off900, Width.w900) ∈
      [(Instr.off400, Width.w400), (.off700, .w700), (.off800, .w800), (.off900, .w900)] := by decide

/-- Each clause: a discarded minute for 57 and 61 pairs and for `bad`, then a frame that passes, one of 58 and one of 60
pairs, one without the marker and one that fails a parity check. -/
theorem witness_MarkerPulseClosesTheMinute :
    (∀ s ∈ [frame30, frame35, zeros59], s.century ≠ 0 ∧ (s.bad = 0 ∧ 58 ≤ s.n.toNat ∧ s.n.toNat ≤ 60)) ∧
      (¬ (({ frame30 with n := 57, century := 0 } : State).bad = 0 ∧
        validate (({ frame30 with n := 57, century := 0 } : State).channel .A)
          (({ frame30 with n := 57, century := 0 } : State).channel .B) = .passed)) ∧
      ¬ 58 ≤ ({ frame30 with n := 57 } : State).n.toNat ∧ ¬ ({ frame30 with n := 61 } : State).n.toNat ≤ 60 ∧
      ({ frame30 with bad := 1 } : State).bad ≠ 0 ∧
      validate (frame30.channel .A) (frame30.channel .B) = .passed ∧
      (∀ k ∈ [(58 : BitVec 6), 60], validate (({ frame30 with n := k } : State).channel .A)
        (({ frame30 with n := k } : State).channel .B) = .failed .lengthMismatch) ∧
      validate (zeros59.channel .A) (zeros59.channel .B) = .failed .markerNotFound ∧
      validate (frame35.channel .A) (frame35.channel .B) = .failed (.parityFailure 0) := by decide +kernel

theorem witness_On900CompletesAZeroSecond :
    (minute none (some .w100)).bufA.wf = true ∧ (minute none (some .w100)).bufB.wf = true ∧
      (minute none (some .w100)).wOff = some .w100 ∧ (minute none none).wOff ≠ some .w100 := by decide

theorem witness_On500IsTheSecondMarker :
    (minute none (some .w500)).wOff = some .w500 ∧ (minute none none).wOff ≠ some .w500 := by decide

theorem witness_On700FollowsOff300 :
    (minute none (some .w300)).wOff = some .w300 ∧ (minute none (some .w100)).wOff ≠ some .w300 := by decide

/-- A pulse with a partner, after it and after another, and the pulse with none. -/
theorem witness_OtherOnPulsesCrossCheckTheSecond :
    let l : List (Instr × Width × Option Width) := [(.on100, .w100, some .w900), (.on200, .w200, some .w800),
      (.on300, .w300, some .w700), (.on400, .w400, none), (.on800, .w800, some .w200)]
    (Instr.on800, Width.w800, some Width.w200) ∈ l ∧ (Instr.on400, Width.w400, none) ∈ l ∧
      (minute none (some .w200)).wOff = some .w200 ∧ (minute none none).wOff ≠ some .w200 := by decide

theorem witness_KindsOfSecond :
    (minute (some .w700) (some .w300)).bufA.wf = true ∧ (minute (some .w700) (some .w300)).bufB.wf = true ∧
      (minute (some .w700) (some .w300)).wOn ≠ some .w100 ∧ (minute (some .w700) (some .w300)).century ≠ 0 := by decide

theorem witness_AppendAtCapacity :
    ({ State.reset with n := 60 } : State).n = 60 ∧ ({ State.reset with n := 61 } : State).n = 61 := by decide

/-- Each clause of the chain: length, marker, the four groups, and a pass. The frames are V40, V24, V35 to V38 and V30. -/
theorem witness_ValidatorReportsTheFirstFailure :
    let a := frame30.channel .A
    let field (lo len flag : Nat) (l : List Nat) :=
      par (slice a lo len) = (bitAt (({ frame30 with bufB := ones l } : State).channel .B) flag).toNat
    (({ frame30 with n := 58 } : State).channel .A).length ≠ 59 ∧ a.length = 59 ∧
      slice a 51 8 = [false, true, true, true, true, true, true, false] ∧
      (zeros59.channel .A).length = 59 ∧
      slice (zeros59.channel .A) 51 8 ≠ [false, true, true, true, true, true, true, false] ∧
      field 16 8 53 [53, 56, 57] ∧ ¬ field 16 8 53 [56, 57] ∧ field 24 11 54 [54, 56, 57] ∧ ¬ field 24 11 54 [56, 57] ∧
      field 35 3 55 [55, 56, 57] ∧ ¬ field 35 3 55 [56, 57] ∧ field 38 13 56 [57] ∧ ¬ field 38 13 56 [56, 57] := by
  decide +kernel

theorem witness_ValidFrameIsDecodedExactly :
    frame30.century ≠ 0 ∧ frame30.bad = 0 ∧ validate (frame30.channel .A) (frame30.channel .B) = .passed := by
  decide +kernel

theorem witness_OnlyTheReservedCenturyIsRefused :
    ({ frame30 with century := 0 } : State).century = 0 ∧ ({ frame30 with century := 0 } : State).bad = 0 ∧
      validate (({ frame30 with century := 0 } : State).channel .A)
        (({ frame30 with century := 0 } : State).channel .B) = .passed ∧
      refusalOf (exec .off500 { frame30 with century := 0 }) = some .centuryReserved := by decide +kernel

/-- Each clause at the ends of its lengths. -/
theorem witness_BcdRoundTrip :
    bcdEncode 99 8 = some [true, false, false, true, true, false, false, true] ∧ (bcdEncode 1 1).isSome = true ∧
      (bcdEncode 9 4).isSome = true ∧ (bcdEncode 19 5).isSome = true ∧
      packMsb [true, false, false, true] % 16 ≤ 9 ∧ packMsb [true, false, false, true] / 16 ≤ 9 := by decide

theorem witness_NothingIsFatal : State.reset.century ≠ 0 := by decide

/-- Operations that complete, for the statements about every operation that does: an expected and an unexpected
carrier-on pulse, a carrier-off pulse, a minute close, an unclassified edge, and the control events, each with what the
clauses of those statements ask of it. -/
theorem witness_completing_pulses :
    (isNext (exec .on900 (minute none (some .w100))) = true ∧ outWord .on900 (minute none (some .w100)) = 0x9D00) ∧
      (isNext (exec .on900 (minute none none)) = true ∧ outWord .on900 (minute none none) = 0x9A00) ∧
      (isNext (exec .off200 (minute none none)) = true ∧ outWord .off200 (minute none none) = 0x2180) ∧
      (isNext (exec .off400 (minute none none)) = true ∧ outWord .off400 (minute none none) = 0x4000) := by decide

theorem witness_completing_closes :
    (isNext (exec .off500 frame30) = true ∧ outWord .off500 frame30 = 0x5008) ∧
      (isNext (exec .off500 frame35) = true ∧ outWord .off500 frame35 = 0x5028) ∧
      (isNext (exec .off500 (minute none none)) = true ∧ outWord .off500 (minute none none) = 0x5010) := by decide +kernel

theorem witness_completing_events :
    (isNext (exec (.edgeR 1600000) timed) = true ∧ outWord (.edgeR 1600000) timed = 0xF000) ∧
      (isNext (exec .wdog timed) = true ∧ outWord .wdog timed = 0x0001) ∧
      (isNext (exec .reset timed) = true ∧ outWord .reset timed = 0x0000) ∧
      (isNext (exec .stop timed) = true ∧ outWord .stop timed = 0x0000) := by decide

theorem witness_TickExactlyOnExpectedCarrierOn :
    ∃ (i : Instr) (s t : State), exec i s = .next t ∧ t.out.tick = true ∧ unexpected .w900 s.wOff = false :=
  ⟨.on900, minute none (some .w100), _, eq_nextOf (by decide), by decide, by decide⟩

/-- A carrier-on pulse, a carrier-off pulse, and an edge that is no pulse. -/
theorem witness_WidthRegistersHoldTheLastPulse :
    ∃ (i j k : Instr) (s t u v : State), exec i s = .next t ∧ t.out.cls = .sym .w900 ∧ t.out.pol = true ∧
      exec j s = .next u ∧ u.out.cls = .sym .w400 ∧ u.out.pol = false ∧
      exec k s = .next v ∧ v.out.cls = .incomplete :=
  ⟨.on900, .off400, .edgeR 5, minute none none, _, _, _, eq_nextOf (by decide), by decide, by decide,
    eq_nextOf (by decide), by decide, by decide, eq_nextOf (by decide), by decide⟩

/-- A step that appends, a minute close, and a step that does neither. -/
theorem witness_PairCountRule :
    ∃ (i j k : Instr) (s t u v : State), exec i s = .next t ∧ t.out.app = true ∧
      exec j s = .next u ∧ u.out.fr ≠ .noFrame ∧ exec k s = .next v ∧ v.out.app = false ∧ v.out.fr = .noFrame :=
  ⟨.off200, .off500, .off400, minute none none, _, _, _, eq_nextOf (by decide), by decide, eq_nextOf (by decide),
    by decide, eq_nextOf (by decide), by decide, by decide⟩

/-- An unexpected pulse, a minute close, and a step that reports nothing. -/
theorem witness_BadPacketCountRule :
    ∃ (i j k : Instr) (s t u v : State), exec i s = .next t ∧ t.out.unexp = true ∧
      exec j s = .next u ∧ u.out.fr ≠ .noFrame ∧
      exec k s = .next v ∧ v.out.cls ≠ .unclassified ∧ v.out.unexp = false ∧ v.out.fr = .noFrame :=
  ⟨.on900, .off500, .off400, minute none none, _, _, _, eq_nextOf (by decide), by decide, eq_nextOf (by decide),
    by decide, eq_nextOf (by decide), by decide, by decide, by decide⟩

/-- A failed close, a successful one, and a step that closes nothing. -/
theorem witness_ResultRegistersKeepTheLastResult :
    ∃ (i j : Instr) (s r t u v : State), exec i s = .next t ∧ t.out.fr = .discarded ∧
      exec i r = .next u ∧ u.out.fr = .ok ∧ exec j s = .next v ∧ v.out.fr = .noFrame ∧ j ≠ .reset :=
  ⟨.off500, .off400, minute none none, frame30, _, _, _, eq_nextOf (by decide), by decide,
    eq_nextOf (by decide +kernel), by decide +kernel, eq_nextOf (by decide), by decide, by decide⟩

/-- An unclassified edge, an unexpected pulse, a minute close and a watchdog timeout. -/
theorem witness_AtMostOneReportInAStep :
    ∃ (i j k l : Instr) (s t u v w : State), exec i s = .next t ∧ t.out.cls = .unclassified ∧
      exec j s = .next u ∧ u.out.unexp = true ∧ exec k s = .next v ∧ v.out.fr ≠ .noFrame ∧
      exec l s = .next w ∧ w.out.wd = true :=
  ⟨.edgeR 1600000, .on900, .off500, .wdog, timed, _, _, _, _, eq_nextOf (by decide), by decide,
    eq_nextOf (by decide), by decide, eq_nextOf (by decide), by decide, eq_nextOf (by decide), by decide⟩

theorem witness_OneErrorCostsTheMinute :
    ∃ (i : Instr) (s t : State), s.bad ≠ 0 ∧ exec i s = .next t ∧ t.out.fr = .discarded ∧ i ≠ .reset :=
  ⟨.off500, { frame30 with bad := 1 }, _, by decide, eq_nextOf (by decide), by decide, by decide⟩

/-- Two states that differ in a cell at `n` and in no cell below it. -/
theorem witness_CellsAboveNAreNeverRead :
    frame30.bufA.wf = true ∧ ({ frame30 with bufB := ones [56, 57, 59] } : State).bufB.wf = true ∧
      frame30 ≠ { frame30 with bufB := ones [56, 57, 59] } ∧
      AgreeBelowN frame30 { frame30 with bufB := ones [56, 57, 59] } := by
  refine ⟨by decide, by decide, by decide, by rfl, ?_⟩
  intro ch i hi
  have hi' : i < 59 := hi
  cases ch
  · rfl
  · unfold State.readCell State.buf
    simp only [frame30, ones, List.map, Memory.bit]
    rw [if_neg (c := 59 = i) (by omega)]

/-- One timestamp unset in both states, the other apart by 999,999; an edge, and an operation that is none. -/
theorem witness_EqualOffsetsStepAlike :
    ShiftedBy 999999 { State.reset with tsFall := 1 } { State.reset with tsFall := 1000000 } ∧
      (500001 : Timestamp) ≠ 0 ∧ (1500000 : Timestamp).toNat = (500001 : Timestamp).toNat + 999999 ∧
      ∀ d x, Instr.off500 ≠ edge d x := by
  refine ⟨⟨rfl, .inl (by decide), .inr (by decide)⟩, by decide, by decide, ?_⟩
  intro d x
  cases d <;> intro h <;> cases h

end Sys2Proof.Tests
end

section
/-! PROOFS. The registers of `10_state.md`: which steps write the width registers (R24, R25), `n` (R26), `bad` (R28) and
the result registers (R32, R35), and their values after reset (R41). A step is sorted once, by `exec_register_cases`, into
one that clears the decoder, one that touches none of these registers but `bad`, or a pulse; a pulse is sorted by
`exec_pulse_ends`. -/

open Sys2Proof Sys2Proof.Machine

namespace Sys2Proof.Proofs

/-! ## What a pulse operation can leave -/

/-- The next states of a pulse operation: a carrier-off pulse that appends, only stores its width, or closes the minute
with a failure or a delivered time; a carrier-on pulse that is unexpected, expected, or completes a zero second. -/
inductive PulseEnds (s : State) : Pulse → State → Prop
  | appendedOff (w : Width) (a b : Bool) :
      PulseEnds s ⟨.carrierOff, w⟩ (((s.beginPulse ⟨.carrierOff, w⟩).append a b).setWOff w)
  | storedOff (w : Width) : PulseEnds s ⟨.carrierOff, w⟩ ((s.beginPulse ⟨.carrierOff, w⟩).setWOff w)
  | closeFailed (c : FrameResult) (g : BitVec 2) : c ≠ .noFrame → c ≠ .ok → (c ≠ .parity → g = 0) →
      (c = .parity → validate (s.channel .A) (s.channel .B) = .failed (.parityFailure g)) →
      PulseEnds s ⟨.carrierOff, .w500⟩
        ((((s.beginPulse ⟨.carrierOff, .w500⟩).recordFrame c g).emptyFrame).setWOff .w500)
  | closeDelivered : validate (s.channel .A) (s.channel .B) = .passed →
      PulseEnds s ⟨.carrierOff, .w500⟩
        ((((s.beginPulse ⟨.carrierOff, .w500⟩).deliverTime
          (decodeTime s.century (s.channel .A) (s.channel .B))).emptyFrame).setWOff .w500)
  | unexpectedOn (w : Width) : PulseEnds s ⟨.carrierOn, w⟩ (onUnexpected s w)
  | expectedOn (w : Width) : PulseEnds s ⟨.carrierOn, w⟩ (onExpected s w)
  | appendedOn : PulseEnds s ⟨.carrierOn, .w900⟩
      ((((s.beginPulse ⟨.carrierOn, .w900⟩).append false false).raiseTick).setWOn .w900)

/-- The channels of the completed frame are those before the pulse. -/
theorem channel_beginPulse (s : State) (p : Pulse) (ch : Channel) : (s.beginPulse p).channel ch = s.channel ch := by
  cases ch <;> rfl

/-- A minute close that completes, with the tail of the marker pulse, ends in one of the two closes. -/
theorem pulseEnds_of_closeMinute {s u : State}
    (h : (s.beginPulse ⟨.carrierOff, .w500⟩).closeMinute = .next u) :
    PulseEnds s ⟨.carrierOff, .w500⟩ (u.setWOff .w500) := by
  rcases State.closeMinute_cases h with ⟨_, rfl⟩ | ⟨_, c, g, hcg, rfl⟩ | ⟨_, hv, _, rfl⟩
  · exact .closeFailed .discarded 0 (by decide) (by decide) (fun _ => rfl) nofun
  · simp only [channel_beginPulse] at hcg
    rcases hcg with ⟨rfl, rfl, _⟩ | ⟨rfl, rfl, _⟩ | ⟨rfl, hv⟩
    · exact .closeFailed .length 0 (by decide) (by decide) (fun _ => rfl) nofun
    · exact .closeFailed .marker 0 (by decide) (by decide) (fun _ => rfl) nofun
    · exact .closeFailed .parity g (by decide) (by decide) (fun hc => absurd rfl hc) (fun _ => hv)
  · simp only [channel_beginPulse] at hv ⊢
    exact .closeDelivered hv

/-- Every pulse operation that completes ends in one of these. -/
theorem exec_pulse_ends {p : Pulse} {s t : State} (h : exec p.instr s = .next t) : PulseEnds s p t := by
  rcases p with ⟨_ | _, w⟩
  case carrierOff =>
    rcases exec_off_cases h with ⟨_, a, b, _, rfl⟩ | ⟨_, _, rfl⟩ | ⟨rfl, u, hu, rfl⟩
    · exact .appendedOff w a b
    · exact .storedOff w
    · exact pulseEnds_of_closeMinute hu
  case carrierOn =>
    rcases exec_on_cases h with ⟨_, rfl⟩ | ⟨_, _, rfl⟩ | ⟨rfl, _, _, rfl⟩
    · exact .unexpectedOn w
    · exact .expectedOn w
    · exact .appendedOn

/-! ## What a pulse writes, register by register -/

/-- A pulse writes the width register of its polarity and keeps the other (R136, R139). -/
theorem pulse_width_registers {p : Pulse} {s t : State} (h : PulseEnds s p t) :
    ∃ w, t.out.cls = .sym w ∧
      (t.out.pol = true ∧ t.wOn = some w ∧ t.wOff = s.wOff ∨ t.out.pol = false ∧ t.wOff = some w ∧ t.wOn = s.wOn) := by
  refine ⟨p.width, ?_⟩
  cases h <;> simp [onUnexpected, onExpected]

/-- A pulse that appends counts one, a minute close sets `n` to 0, and every other pulse keeps `n`. -/
theorem pulse_n {p : Pulse} {s t : State} (h : PulseEnds s p t) :
    (t.out.app = true ∧ t.out.fr = .noFrame ∧ t.n = satIncN s.n) ∨
    (t.out.app = false ∧ t.out.fr ≠ .noFrame ∧ t.n = 0) ∨
    (t.out.app = false ∧ t.out.fr = .noFrame ∧ t.n = s.n) := by
  cases h with
  | closeFailed c g hc => exact .inr (.inl ⟨rfl, hc, rfl⟩)
  | closeDelivered => exact .inr (.inl ⟨rfl, nofun, rfl⟩)
  | appendedOff | appendedOn => exact .inl ⟨rfl, rfl, rfl⟩
  | storedOff | unexpectedOn | expectedOn => exact .inr (.inr ⟨rfl, rfl, rfl⟩)

/-- An unexpected pulse counts one, a minute close sets `bad` to 0, and every other pulse keeps `bad`. -/
theorem pulse_bad {p : Pulse} {s t : State} (h : PulseEnds s p t) :
    (t.out.unexp = true ∧ t.out.fr = .noFrame ∧ t.bad = satInc8 s.bad) ∨
    (t.out.unexp = false ∧ t.out.fr ≠ .noFrame ∧ t.bad = 0) ∨
    (t.out.unexp = false ∧ t.out.fr = .noFrame ∧ t.bad = s.bad) := by
  cases h with
  | closeFailed c g hc => exact .inr (.inl ⟨rfl, hc, rfl⟩)
  | closeDelivered => exact .inr (.inl ⟨rfl, nofun, rfl⟩)
  | unexpectedOn => exact .inl ⟨rfl, rfl, rfl⟩
  | appendedOff | storedOff | expectedOn | appendedOn => exact .inr (.inr ⟨rfl, rfl, rfl⟩)

/-- What a step leaves in the result registers when it closed no minute, a minute that failed, or one that passed every
check (R132, R176). -/
inductive ResultsWritten (s t : State) : Prop
  | kept : t.out.fr = .noFrame → t.fst = s.fst → t.dt = s.dt → t.dtOk = s.dtOk → ResultsWritten s t
  | failed : t.out.fr ≠ .noFrame → t.out.fr ≠ .ok → (t.out.fr ≠ .parity → t.out.pg = 0) →
      (t.out.fr = .parity → validate (s.channel .A) (s.channel .B) = .failed (.parityFailure t.out.pg)) →
      t.fst = { code := t.out.fr, pg := t.out.pg } → t.dt = s.dt → t.dtOk = s.dtOk → ResultsWritten s t
  | delivered : t.out.fr = .ok → t.out.pg = 0 → validate (s.channel .A) (s.channel .B) = .passed →
      t.fst = { code := t.out.fr, pg := t.out.pg } → t.dtOk = true →
      t.dt = packTime (decodeTime s.century (s.channel .A) (s.channel .B)) → ResultsWritten s t

/-- A pulse writes the result registers as its minute close, if any, says. -/
theorem pulse_results {p : Pulse} {s t : State} (h : PulseEnds s p t) : ResultsWritten s t := by
  cases h with
  | closeFailed c g hc hok hg hv => exact .failed hc hok hg hv rfl rfl rfl
  | closeDelivered hv => exact .delivered rfl rfl hv rfl rfl rfl
  | appendedOff | storedOff | unexpectedOn | expectedOn | appendedOn => exact .kept rfl rfl rfl rfl

/-! ## The steps that dispatch no pulse -/

/-- The steps that set the decoder registers back: `RESET`, and `WDOG` while running (R190, R191). -/
def ClearsDecoder (i : Instr) (s : State) : Prop := i = .reset ∨ i = .wdog ∧ s.run = true

/-- The decoder registers at their reset values, and a record that reports no pulse, no append and no close. -/
structure DecoderCleared (t : State) : Prop where
  wOn : t.wOn = none
  wOff : t.wOff = none
  n : t.n = 0
  bad : t.bad = 0
  cls : t.out.cls = .none
  app : t.out.app = false
  unexp : t.out.unexp = false
  fr : t.out.fr = .noFrame

/-- A step without a pulse that clears nothing: of these registers it can write `bad` alone, by an UNCLASSIFIED
result. -/
structure NoPulse (s t : State) : Prop where
  cls : ∀ w, t.out.cls ≠ .sym w
  app : t.out.app = false
  unexp : t.out.unexp = false
  fr : t.out.fr = .noFrame
  wOn : t.wOn = s.wOn
  wOff : t.wOff = s.wOff
  n : t.n = s.n
  bad : t.out.cls = .unclassified ∧ t.bad = satInc8 s.bad ∨ t.out.cls ≠ .unclassified ∧ t.bad = s.bad
  fst : t.fst = s.fst
  dt : t.dt = s.dt
  dtOk : t.dtOk = s.dtOk

/-- An event while stopped touches none of the registers (R193). -/
theorem stoppedStep_noPulse (s : State) : NoPulse s s.stoppedStep := by
  constructor <;> simp

/-- An edge that ends in the classifier touches none of the registers, but for `bad` (R108). -/
theorem edgeEnds_noPulse {d : Direction} {x : Timestamp} {s t : State} (h : EdgeEnds d x s t) : NoPulse s t := by
  cases h <;> constructor <;> simp

theorem edge_not_clearsDecoder (d : Direction) (x : Timestamp) (s : State) : ¬ ClearsDecoder (edge d x) s := by
  cases d <;> simp [ClearsDecoder, edge]

theorem pulse_not_clearsDecoder (p : Pulse) (s : State) : ¬ ClearsDecoder p.instr s := by
  obtain ⟨hreset, hwdog, -, -⟩ := pulse_ne_event p
  simp [ClearsDecoder, hreset, hwdog]

/-- The four kinds of step, as the registers see them. A pulse runs on the registers as they stand: an edge step before
it has changed the timestamps and the record alone. -/
theorem exec_register_cases {i : Instr} {s t : State} (h : exec i s = .next t) :
    (i = .reset ∧ DecoderCleared t ∧ t.fst = { code := .noFrame, pg := 0 } ∧ t.dt = 0 ∧ t.dtOk = false) ∨
    (i = .wdog ∧ s.run = true ∧ DecoderCleared t ∧ t.fst = s.fst ∧ t.dt = s.dt ∧ t.dtOk = s.dtOk) ∨
    (¬ ClearsDecoder i s ∧ NoPulse s t) ∨
    (¬ ClearsDecoder i s ∧ ∃ p r f o v,
      PulseEnds { s with tsRise := r, tsFall := f, out := o, outValid := v } p t) := by
  refine exec_elim h ?stopped ?reset ?wdog ?stop ?edge ?pulse
  case stopped =>
    rintro hr hi rfl
    refine .inr (.inr (.inl ⟨?_, stoppedStep_noPulse s⟩))
    rcases hi with ⟨d, x, rfl⟩ | rfl | rfl
    · exact edge_not_clearsDecoder d x s
    · simp [ClearsDecoder, hr]
    · simp [ClearsDecoder]
  case reset =>
    rintro rfl rfl
    exact .inl ⟨rfl, by constructor <;> rfl, rfl, rfl, rfl⟩
  case wdog =>
    rintro rfl hr rfl
    exact .inr (.inl ⟨rfl, hr, by constructor <;> rfl, rfl, rfl, rfl⟩)
  case stop =>
    rintro rfl - rfl
    exact .inr (.inr (.inl ⟨by simp [ClearsDecoder], by constructor <;> simp⟩))
  case edge =>
    rintro d x rfl - he
    exact .inr (.inr (.inl ⟨edge_not_clearsDecoder d x s, edgeEnds_noPulse he⟩))
  case pulse =>
    intro p s' hs' hp
    have hends := exec_pulse_ends hp
    refine .inr (.inr (.inr ?_))
    rcases hs' with ⟨rfl, rfl⟩ | ⟨d, x, rfl, -, -, rfl⟩
    · exact ⟨pulse_not_clearsDecoder p s', p, s'.tsRise, s'.tsFall, s'.out, s'.outValid, hends⟩
    · refine ⟨edge_not_clearsDecoder d x s, p, ?_⟩
      cases d
      · exact ⟨x, s.tsFall, {}, true, hends⟩
      · exact ⟨s.tsRise, x, {}, true, hends⟩

/-- Neither of the two reasons for which `n` and `bad` are set to 0 (R26, R28). -/
theorem not_closed_nor_cleared {i : Instr} {s t : State} (hi : ¬ ClearsDecoder i s) (hfr : t.out.fr = .noFrame) :
    ¬ (t.out.fr ≠ .noFrame ∨ i = .reset ∨ i = .wdog ∧ s.run = true) :=
  fun hz => hz.elim (absurd hfr) hi

/-! ## The statements -/

/-- Settles O52: a pulse writes its own width register, the clearing steps both, and the rest none. -/
theorem widthRegistersHoldTheLastPulse : Obligations.WidthRegistersHoldTheLastPulse := by
  intro i s t h
  rcases exec_register_cases h with ⟨rfl, hc, -⟩ | ⟨rfl, hr, hc, -⟩ | ⟨hi, hk⟩ | ⟨hi, p, r, f, o, v, hp⟩
  · simp [hc.cls, hc.wOn, hc.wOff]
  · simp [hc.cls, hc.wOn, hc.wOff, hr]
  · exact ⟨fun hc => absurd hc hi, fun w hw => absurd hw (hk.cls w), fun w hw => absurd hw (hk.cls w),
      fun _ _ => ⟨hk.wOn, hk.wOff⟩⟩
  · obtain ⟨w, hw, hreg⟩ := pulse_width_registers hp
    refine ⟨fun hc => absurd hc hi, fun w' hw' hpol => ?_, fun w' hw' hpol => ?_, fun hn => absurd hw (hn w)⟩
    all_goals
      obtain rfl : w = w' := by simpa [hw] using hw'
      simpa [hpol] using hreg

/-- Settles O53: APPEND counts, a close and the clearing steps set 0, and the rest keep `n`. -/
theorem pairCountRule : Obligations.PairCountRule := by
  intro i s t h
  rcases exec_register_cases h with ⟨rfl, hc, -⟩ | ⟨rfl, hr, hc, -⟩ | ⟨hi, hk⟩ | ⟨hi, p, r, f, o, v, hp⟩
  · simp [hc.app, hc.n]
  · simp [hc.app, hc.n, hr]
  · exact ⟨by simp [hk.app], (absurd · (not_closed_nor_cleared hi hk.fr)), fun _ _ => hk.n⟩
  · rcases pulse_n hp with ⟨happ, hfr, hn⟩ | ⟨happ, hfr, hn⟩ | ⟨happ, hfr, hn⟩
    · exact ⟨fun _ => hn, (absurd · (not_closed_nor_cleared hi hfr)), by simp [happ]⟩
    · exact ⟨by simp [happ], fun _ => hn, fun _ hz => absurd (.inl hfr) hz⟩
    · exact ⟨by simp [happ], (absurd · (not_closed_nor_cleared hi hfr)), fun _ _ => hn⟩

/-- Settles O54: UNCLASSIFIED and unexpected pulses count, a close and the clearing steps set 0, and the rest keep
`bad`. -/
theorem badPacketCountRule : Obligations.BadPacketCountRule := by
  intro i s t h
  rcases exec_register_cases h with ⟨rfl, hc, -⟩ | ⟨rfl, hr, hc, -⟩ | ⟨hi, hk⟩ | ⟨hi, p, r, f, o, v, hp⟩
  · simp [hc.cls, hc.unexp, hc.bad]
  · simp [hc.cls, hc.unexp, hc.bad, hr]
  · have hz := not_closed_nor_cleared hi hk.fr
    rcases hk.bad with ⟨hcls, hbad⟩ | ⟨hcls, hbad⟩
    · exact ⟨fun _ => hbad, (absurd · hz), fun hn => absurd hcls hn⟩
    · exact ⟨by simp [hcls, hk.unexp], (absurd · hz), fun _ _ _ => hbad⟩
  · obtain ⟨w, hw, -⟩ := pulse_width_registers hp
    rcases pulse_bad hp with ⟨hun, hfr, hbad⟩ | ⟨hun, hfr, hbad⟩ | ⟨hun, hfr, hbad⟩
    · exact ⟨fun _ => hbad, (absurd · (not_closed_nor_cleared hi hfr)), by simp [hun]⟩
    · exact ⟨by simp [hw, hun], fun _ => hbad, fun _ _ hz => absurd (.inl hfr) hz⟩
    · exact ⟨by simp [hw, hun], (absurd · (not_closed_nor_cleared hi hfr)), fun _ _ _ => hbad⟩

/-- Settles O55: only a minute close and `RESET` write `FST`, and only a successful close and `RESET` write `DT` and
`DT_OK`. -/
theorem resultRegistersKeepTheLastResult : Obligations.ResultRegistersKeepTheLastResult := by
  intro i s t h
  have hreset : ¬ ClearsDecoder i s → i ≠ .reset := fun hi hr => hi (.inl hr)
  rcases exec_register_cases h with ⟨rfl, hc, hfst, hdt, hok⟩ | ⟨rfl, hr, hc, hfst, hdt, hok⟩ | ⟨hi, hk⟩ |
      ⟨hi, p, r, f, o, v, hp⟩
  · simp [hc.fr, hfst, hdt, hok]
  · simp [hc.fr, hfst, hdt, hok]
  · simp [hk.fr, hk.fst, hk.dt, hk.dtOk, hreset hi]
  · have hnot := hreset hi
    cases pulse_results hp with
    | kept hfr hfst hdt hok => simp [hfr, hfst, hdt, hok, hnot]
    | failed hfr hnok hpg hv hfst hdt hok =>
      exact ⟨(absurd · hnot), fun _ => ⟨hfst, hpg⟩, hv, (absurd · hfr), (absurd · hnok), fun _ _ => ⟨hdt, hok⟩⟩
    | delivered hfr hpg hv hfst hok hdt =>
      exact ⟨(absurd · hnot), fun _ => ⟨hfst, fun _ => hpg⟩, by simp [hfr], by simp [hfr],
        fun _ => ⟨hv, hok, hdt⟩, by simp [hfr]⟩

/-- Settles O13: each value is the one `State.reset` is defined with. -/
theorem resetValues : Obligations.ResetValues :=
  ⟨rfl, rfl, rfl, rfl, rfl, rfl, rfl, rfl, rfl, rfl, rfl⟩

end Sys2Proof.Proofs
end

section
/-! PROOFS. The frame buffers of `20_memory.md` at their capacity: what `APPEND` and the minute close do once all 60
cells of both channels are written (R65, R132). -/

open Sys2Proof Sys2Proof.Machine

namespace Sys2Proof.Proofs

/-- From 60 on, the saturating count gives 61. -/
theorem satIncN_of_full {v : BitVec 6} (h : 60 ≤ v.toNat) : satIncN v = 61 := by
  have hv := satIncN_toNat v
  exact BitVec.eq_of_toNat_eq (hv.trans (Nat.min_eq_right (by omega)))

/-- `APPEND` with no room left: both buffers stay, `n` goes to 61, and the record shows the pair all the same. -/
theorem append_of_full {s : State} (a b : Bool) (h : 60 ≤ s.n.toNat) :
    s.append a b = { s with n := 61, out := { s.out with app := true, pa := a, pb := b } } := by
  have hfull : ¬ s.n.toNat < Params.bufCap := Nat.not_lt.mpr h
  simp only [State.append, if_neg hfull, satIncN_of_full h]

/-- `APPEND` with no room left keeps every cell, in canonical form or not. -/
theorem append_cellsKept_of_full {s : State} (a b : Bool) (h : 60 ≤ s.n.toNat) : CellsKept s (s.append a b) := by
  rw [append_of_full a b h]
  exact State.readCell_congr rfl rfl

/-- More than 60 pairs are not handed to the validator (R132). -/
theorem handsOver_eq_false_of_overfull {s : State} (h : 60 < s.n.toNat) : s.handsOver = false := by
  rw [Bool.eq_false_iff, ne_eq, State.handsOver_iff]
  rintro ⟨-, -, hle⟩
  omega

/-- The marker pulse of a minute with more than 60 pairs completes and discards the minute. -/
theorem exec_off500_of_overfull {s : State} (h : 60 < s.n.toNat) :
    exec .off500 s =
      .next ((((s.beginPulse ⟨.carrierOff, .w500⟩).recordFrame .discarded 0).emptyFrame).setWOff .w500) := by
  have hclose : (s.beginPulse ⟨.carrierOff, .w500⟩).handsOver = false := handsOver_eq_false_of_overfull h
  rw [exec_off500, State.closeMinute_discarded hclose, andThen_next]

/-- Settles O44: at 60 and 61 pairs there is no room, and 61 pairs are too many for the validator. -/
theorem appendAtCapacity : Obligations.AppendAtCapacity := by
  refine ⟨fun s a b hn => ?_, fun s hn => ?_⟩
  · have hfull : 60 ≤ s.n.toNat := by rcases hn with hn | hn <;> simp [hn]
    exact ⟨append_of_full a b hfull, append_cellsKept_of_full a b hfull⟩
  · have hover : 60 < s.n.toNat := by simp [hn]
    exact ⟨_, exec_off500_of_overfull hover, rfl⟩

end Sys2Proof.Proofs
end

section
/-! PROOFS. The event words of `30_encoding.md`: the two bits a mask of R72 keeps are the `kind` field, and `kind` alone
chooses the operation. -/

open Sys2Proof Sys2Proof.Machine

namespace Sys2Proof.Proofs

/-- The decoder accepts every event word (R72). -/
theorem decode_event (w : EventWord) : decode (.event w) = .ok (decodeEvent w) := rfl

/-- The mask of R72 is all ones at `kind`, so a masked word has the `kind` of the word. -/
theorem kind_eq_of_masked {w v : EventWord} (h : w &&& 0x300000000#34 = v) :
    w.extractLsb' 32 2 = v.extractLsb' 32 2 := by
  have hones : (0x300000000#34).extractLsb' 32 2 = BitVec.allOnes 2 := rfl
  rw [← h, BitVec.extractLsb'_and, hones, BitVec.and_allOnes]

/-- Kind 0 is `EDGE.F`, with the low 32 bits as its timestamp (R71, R72). -/
theorem decodeEvent_of_kind_zero {w : EventWord} (h : w.extractLsb' 32 2 = 0) :
    decodeEvent w = .edgeF (w.setWidth 32) := by
  rw [decodeEvent, h, BitVec.setWidth_eq_extractLsb' (by decide)]
  rfl

/-- Kind 1 is `EDGE.R`, with the low 32 bits as its timestamp (R71, R72). -/
theorem decodeEvent_of_kind_one {w : EventWord} (h : w.extractLsb' 32 2 = 1) :
    decodeEvent w = .edgeR (w.setWidth 32) := by
  rw [decodeEvent, h, BitVec.setWidth_eq_extractLsb' (by decide)]
  rfl

/-- Kind 2 is `WDOG`, whatever the low 32 bits (R71, R72). -/
theorem decodeEvent_of_kind_two {w : EventWord} (h : w.extractLsb' 32 2 = 2) : decodeEvent w = .wdog := by
  rw [decodeEvent, h]
  rfl

/-- Kind 3 is `STOP`, whatever the low 32 bits (R71, R72). -/
theorem decodeEvent_of_kind_three {w : EventWord} (h : w.extractLsb' 32 2 = 3) : decodeEvent w = .stop := by
  rw [decodeEvent, h]
  rfl

/-- Settles O3: each match value of R72 fixes `kind`, and `kind` fixes the operation. -/
theorem eventWordsByMatchAndMask : Obligations.EventWordsByMatchAndMask := by
  intro w
  rw [decode_event]
  refine ⟨fun h => ?edgeF, fun h => ?edgeR, fun h => ?wdog, fun h => ?stop, _, rfl⟩
  case edgeF => rw [decodeEvent_of_kind_zero (kind_eq_of_masked h)]
  case edgeR => rw [decodeEvent_of_kind_one (kind_eq_of_masked h)]
  case wdog => rw [decodeEvent_of_kind_two (kind_eq_of_masked h)]
  case stop => rw [decodeEvent_of_kind_three (kind_eq_of_masked h)]

end Sys2Proof.Proofs
end

section
/-! PROOFS. The classifier of `40_classifier.md`, stage by stage. An edge taken with `run = 1` is sorted once, by
`exec_edge_cases`; each stage of R101 to R103 is the one branch its conditions leave, and stages 4 to 7 are sorted again
by the interval read as a natural number (`exec_edge_measured`), with the windows of R107 as bounds (`InWindow`). -/

open Sys2Proof Sys2Proof.Machine

namespace Sys2Proof.Proofs

/-! ## The windows of R107 -/

/-- The interval lies within the tolerance of a nominal width, both bounds included (R107). -/
def InWindow (delta : Nat) (w : Width) : Prop := 1000 * w.ms ≤ delta + 35000 ∧ delta ≤ 1000 * w.ms + 35000

theorem withinWindow_iff_inWindow (delta : Nat) (w : Width) :
    withinWindow Params.tolInclusive delta w = true ↔ InWindow delta w := by
  simp only [withinWindow, Params.tolInclusive, Params.tTol, if_true, decide_eq_true_eq, InWindow]
  omega

theorem mem_nominals (w : Width) : w ∈ Params.nominals := by
  cases w <;> decide

theorem width_eq_of_code_toNat {v w : Width} (h : v.code.toNat = w.code.toNat) : v = w := by
  have hcode : ∀ v w : Width, v.code = w.code → v = w := by rintro ⟨⟩ ⟨⟩ <;> decide
  exact hcode v w (BitVec.eq_of_toNat_eq h)

/-- Two windows that share an interval are one: nominal widths are 100,000 us apart, a window is 70,000 us wide. -/
theorem width_eq_of_inWindow {delta : Nat} {v w : Width} (hv : InWindow delta v) (hw : InWindow delta w) : v = w := by
  obtain ⟨hv1, hv2⟩ := hv
  obtain ⟨hw1, hw2⟩ := hw
  simp only [Width.ms] at hv1 hv2 hw1 hw2
  exact width_eq_of_code_toNat (by omega)

/-- The order in which the widths are tried does not matter: the interval is classified as the width of its window. -/
theorem classifyInterval_eq_some_iff {delta : Nat} {w : Width} :
    classifyInterval delta = some w ↔ InWindow delta w := by
  constructor
  · intro h
    exact (withinWindow_iff_inWindow delta w).1 (List.find?_some h)
  · intro h
    have hsome : (classifyInterval delta).isSome = true :=
      List.find?_isSome.2 ⟨w, mem_nominals w, (withinWindow_iff_inWindow delta w).2 h⟩
    obtain ⟨v, hv⟩ := Option.isSome_iff_exists.1 hsome
    have hvin : InWindow delta v := (withinWindow_iff_inWindow delta v).1 (List.find?_some hv)
    rw [hv, width_eq_of_inWindow hvin h]

/-- The lowest window lies above the ignore threshold, so R106 takes no interval from R107. -/
theorem le_of_inWindow {delta : Nat} {w : Width} (h : InWindow delta w) : 65000 ≤ delta := by
  have hcode : 1 ≤ w.code.toNat := by cases w <;> decide
  obtain ⟨hlo, -⟩ := h
  simp only [Width.ms] at hlo
  omega

/-! ## Stages 1 to 3: skip, seeding, wrap -/

/-- Stage 1 takes an edge before any other test (R101). -/
theorem exec_edge_skipped {d : Direction} {t : Timestamp} {s : State} (hr : s.run = true) (hs : s.skip = true) :
    exec (edge d t) s = .next { s with skip := false, out := { cls := .ignored }, outValid := true } := by
  rcases exec_edge_cases (d := d) (t := t) hr with ⟨u, hu, he⟩ | ⟨hs', -⟩
  · cases he with
    | ignored => exact hu
    | seeded hs' | wrapped hs' | short hs' | unclassified hs' => simp [hs] at hs'
  · simp [hs] at hs'

/-- Stage 2: with nothing to measure from, the edge only records itself (R102). -/
theorem exec_edge_seeds {d : Direction} {t : Timestamp} {s : State} (hr : s.run = true) (hs : s.skip = false)
    (h0 : s.ts d.opp = 0) :
    exec (edge d t) s = .next { s.setTs d t with out := { cls := .incomplete }, outValid := true } := by
  rcases exec_edge_cases (d := d) (t := t) hr with ⟨u, hu, he⟩ | ⟨-, h0', -⟩
  · cases he with
    | ignored hs' => simp [hs] at hs'
    | seeded => exact hu
    | wrapped _ h0' | short _ h0' | unclassified _ h0' => exact absurd h0 h0'
  · exact absurd h0 h0'

/-- Stage 3: a backward step of the clock against either reference drops both (R103). -/
theorem exec_edge_wraps {d : Direction} {t : Timestamp} {s : State} (hr : s.run = true) (hs : s.skip = false)
    (h0 : s.ts d.opp ≠ 0) (hw : t < s.tsRise ∨ t < s.tsFall) :
    exec (edge d t) s =
      .next { s with tsRise := 0, tsFall := 0, out := { cls := .incomplete }, outValid := true } := by
  have hnot : s.tsRise ≤ t → ¬ s.tsFall ≤ t := fun hrise hfall =>
    hw.elim (BitVec.not_lt.2 hrise) (BitVec.not_lt.2 hfall)
  rcases exec_edge_cases (d := d) (t := t) hr with ⟨u, hu, he⟩ | ⟨-, -, hrise, hfall, -⟩
  · cases he with
    | ignored hs' => simp [hs] at hs'
    | seeded _ h0' => exact absurd h0' h0
    | wrapped => exact hu
    | short _ _ hrise hfall | unclassified _ _ hrise hfall => exact absurd hfall (hnot hrise)
  · exact absurd hfall (hnot hrise)

/-! ## Stages 4 to 7: the measured interval -/

/-- A pulse operation writes the whole record, so the one the edge step began with leaves no trace (R36, R110). -/
theorem exec_pulse_beginStep (p : Pulse) (s : State) : exec p.instr s.beginStep = exec p.instr s := by
  rcases p with ⟨_ | _, w⟩
  case carrierOff =>
    by_cases hw : w = .w500
    · subst hw
      exact (exec_off500 s.beginStep).trans (exec_off500 s).symm
    · rw [exec_off hw, exec_off hw]
      rfl
  case carrierOn =>
    rw [exec_on, exec_on]
    rfl

theorem setTs_beginStep (s : State) (d : Direction) (t : Timestamp) :
    s.beginStep.setTs d t = (s.setTs d t).beginStep := by
  cases d <;> rfl

/-- An edge that measures an interval records its timestamp and is one of three: short (R106), in no window (R108), or
the operation of the pulse of its window (R107, R109). -/
theorem exec_edge_measured {d : Direction} {t : Timestamp} {s : State} (hr : s.run = true) (hs : s.skip = false)
    (h0 : s.ts d.opp ≠ 0) (hrise : s.tsRise.toNat ≤ t.toNat) (hfall : s.tsFall.toNat ≤ t.toNat) {delta : Nat}
    (hdelta : delta = t.toNat - (s.ts d.opp).toNat) :
    (delta < 50000 ∧
      exec (edge d t) s = .next { s.setTs d t with skip := true, out := {}, outValid := true }) ∨
    (50000 ≤ delta ∧ (∀ w, ¬ InWindow delta w) ∧
      exec (edge d t) s = .next { s.setTs d t with
        bad := satInc8 s.bad, out := { cls := .unclassified }, outValid := true }) ∨
    (∃ w, InWindow delta w ∧
      exec (edge d t) s = exec (Pulse.instr ⟨pulsePolarity s.pol d, w⟩) (s.setTs d t)) := by
  have hopp : s.ts d.opp ≤ t := by cases d <;> assumption
  rw [← BitVec.toNat_sub_of_le hopp] at hdelta
  subst hdelta
  rcases exec_edge_cases (d := d) (t := t) hr with ⟨u, hu, he⟩ | ⟨-, -, -, -, w, hw, hu⟩
  · cases he with
    | ignored hs' => simp [hs] at hs'
    | seeded _ h0' => exact absurd h0' h0
    | wrapped _ _ hw => exact absurd hw (not_or.2 ⟨BitVec.not_lt.2 hrise, BitVec.not_lt.2 hfall⟩)
    | short _ _ _ _ hd => exact .inl ⟨hd, hu⟩
    | unclassified _ _ _ _ hd hnone =>
      refine .inr (.inl ⟨hd, fun w hw => ?_, hu⟩)
      rw [classifyInterval_eq_some_iff.2 hw] at hnone
      contradiction
  · refine .inr (.inr ⟨w, classifyInterval_eq_some_iff.1 hw, ?_⟩)
    rw [hu, setTs_beginStep, exec_pulse_beginStep]

section
variable {d : Direction} {t : Timestamp} {s : State} (hr : s.run = true) (hs : s.skip = false) (h0 : s.ts d.opp ≠ 0)
  (hrise : s.tsRise.toNat ≤ t.toNat) (hfall : s.tsFall.toNat ≤ t.toNat)
include hr hs h0 hrise hfall

/-- Stage 5: no window reaches below the threshold (R106). -/
theorem exec_edge_short (hd : t.toNat - (s.ts d.opp).toNat < 50000) :
    exec (edge d t) s = .next { s.setTs d t with skip := true, out := {}, outValid := true } := by
  rcases exec_edge_measured hr hs h0 hrise hfall rfl with ⟨-, hu⟩ | ⟨hge, -⟩ | ⟨w, hw, -⟩
  · exact hu
  · omega
  · have hge := le_of_inWindow hw
    omega

/-- Stage 7: an interval no window holds counts as a bad packet (R108). -/
theorem exec_edge_unclassified (hd : 50000 ≤ t.toNat - (s.ts d.opp).toNat)
    (hnone : ∀ w, ¬ InWindow (t.toNat - (s.ts d.opp).toNat) w) :
    exec (edge d t) s = .next { s.setTs d t with
      bad := satInc8 s.bad, out := { cls := .unclassified }, outValid := true } := by
  rcases exec_edge_measured hr hs h0 hrise hfall rfl with ⟨hlt, -⟩ | ⟨-, -, hu⟩ | ⟨w, hw, -⟩
  · omega
  · exact hu
  · exact absurd hw (hnone w)

/-- Stage 6: the windows are disjoint, so the pulse is that of the window the interval is known to lie in (R107,
R109). -/
theorem exec_edge_classified {w : Width} (hw : InWindow (t.toNat - (s.ts d.opp).toNat) w) :
    exec (edge d t) s = exec (Pulse.instr ⟨pulsePolarity s.pol d, w⟩) (s.setTs d t) := by
  rcases exec_edge_measured hr hs h0 hrise hfall rfl with ⟨hlt, -⟩ | ⟨-, hnone, -⟩ | ⟨v, hv, hu⟩
  · have hge := le_of_inWindow hw
    omega
  · exact absurd hw (hnone w)
  · rw [hu, width_eq_of_inWindow hv hw]

end

theorem pulsePolarity_rising (pol : Bool) :
    pulsePolarity pol .rising = if pol = true then .carrierOff else .carrierOn := by
  cases pol <;> rfl

theorem pulsePolarity_falling (pol : Bool) :
    pulsePolarity pol .falling = if pol = true then .carrierOn else .carrierOff := by
  cases pol <;> rfl

/-! ## The statements -/

/-- Settles O22: an unset opposite timestamp seeds; after reset it is unset, and an edge leaves the one opposite to its
own unset. -/
theorem firstEdgeSeeds : Obligations.FirstEdgeSeeds := by
  refine ⟨fun s t hr hs => ⟨fun h0 => ?rising, fun h0 => ?falling⟩, fun d t u => ?afterReset⟩
  case rising => exact exec_edge_seeds (d := .rising) hr hs h0
  case falling => exact exec_edge_seeds (d := .falling) hr hs h0
  case afterReset =>
    have hopp : State.reset.ts d.opp = 0 := by cases d <;> rfl
    refine ⟨_, _, exec_edge_seeds rfl rfl hopp, rfl, exec_edge_seeds ?_ ?_ ?_, rfl⟩ <;> cases d <;> rfl

/-- Settles O23: the wrap stage, with the comparison read on natural numbers. -/
theorem earlierEdgeIsAWrap : Obligations.EarlierEdgeIsAWrap :=
  fun _ _ _ hr hs h0 hw => exec_edge_wraps hr hs h0 hw

/-- Settles O24: the ignore threshold, for either direction. -/
theorem shortIntervalSetsTheSkipMark : Obligations.ShortIntervalSetsTheSkipMark := by
  refine fun s t hr hs hrise hfall => ⟨fun h0 hd => ?rising, fun h0 hd => ?falling⟩
  case rising => exact exec_edge_short (d := .rising) hr hs h0 hrise hfall hd
  case falling => exact exec_edge_short (d := .falling) hr hs h0 hrise hfall hd

/-- Settles O27: the nine ranges lie above the threshold and between the windows. -/
theorem unclassifiedIntervalCountsABadPacket : Obligations.UnclassifiedIntervalCountsABadPacket := by
  intro s d t delta hr hs h0 hrise hfall hdelta hgap
  have hge : 50000 ≤ delta := by omega
  have hnone : ∀ w, ¬ InWindow delta w := by
    rintro w ⟨hlo, hhi⟩
    cases w <;> simp only [Width.ms, Width.code, BitVec.reduceToNat] at hlo hhi <;> omega
  subst hdelta
  exact exec_edge_unclassified hr hs h0 hrise hfall hge hnone

/-- Settles O28: an interval in a window runs the pulse of that window, with the polarity of R109. -/
theorem classifiedEdgeRunsItsPulse : Obligations.ClassifiedEdgeRunsItsPulse := by
  refine fun s t w hr hs hrise hfall => ⟨fun h0 hlo hhi => ?rising, fun h0 hlo hhi => ?falling⟩
  case rising =>
    rw [← pulsePolarity_rising]
    exact exec_edge_classified (d := .rising) hr hs h0 hrise hfall ⟨hlo, hhi⟩
  case falling =>
    rw [← pulsePolarity_falling]
    exact exec_edge_classified (d := .falling) hr hs h0 hrise hfall ⟨hlo, hhi⟩

/-- Settles O21: the skip stage. -/
theorem skippedEdgeIsIgnored : Obligations.SkippedEdgeIsIgnored :=
  fun _ _ _ hr hs => exec_edge_skipped hr hs

end Sys2Proof.Proofs
end

section
/-! PROOFS. The Frame Assembler of `41_assembler.md`, pulse by pulse. A carrier-off pulse appends its pair (R133 to R135),
only stores its width (R137), or closes the minute (R132); a carrier-on pulse is checked against the one carrier-off width
that makes a second of 1000 ms with it, `secondPartner` (R138 to R144). -/

open Sys2Proof Sys2Proof.Machine

namespace Sys2Proof.Proofs

/-! ## Carrier-off pulses: append, or only store the width -/

/-- The marker pulse has no pair of its own. -/
theorem ne_marker_of_offPair {s : State} {w : Width} {a b : Bool} (hp : offPair s w = some (a, b)) : w ≠ .w500 := by
  rintro rfl
  cases hp

/-- A carrier-off pulse with a pair appends it and stores its width (R131, R136). -/
theorem exec_off_appends {s : State} {w : Width} {a b : Bool} (hA : s.bufA.wf = true) (hB : s.bufB.wf = true)
    (hp : offPair s w = some (a, b)) :
    ∃ t, exec (Pulse.instr ⟨.carrierOff, w⟩) s = .next t ∧
      t = { s with
        bufA := t.bufA, bufB := t.bufB, n := satIncN s.n, wOff := some w,
        out := { cls := .sym w, app := true, pa := a, pb := b }, outValid := true } ∧
      CellsAppended s t a b := by
  refine ⟨((s.beginPulse ⟨.carrierOff, w⟩).append a b).setWOff w, ?_, rfl, State.append_cells a b hA hB rfl rfl⟩
  rw [exec_off (ne_marker_of_offPair hp), hp]

/-- A carrier-off pulse with no pair, the marker pulse apart, stores its width and does nothing else (R136, R137). -/
theorem exec_off_stores {s : State} {w : Width} (hw : w ≠ .w500) (hp : offPair s w = none) :
    exec (Pulse.instr ⟨.carrierOff, w⟩) s =
      .next { s with wOff := some w, out := { cls := .sym w }, outValid := true } := by
  rw [exec_off hw, hp]
  rfl

/-! ## Carrier-on pulses: the cross-check of the second -/

/-- The carrier-off width that makes a second of 1000 ms with a carrier-on width; none for 400 ms, there being no 600 ms
symbol (R138, R144). -/
def secondPartner : Width → Option Width
  | .w100 => some .w900
  | .w200 => some .w800
  | .w300 => some .w700
  | .w400 => none
  | .w500 => some .w500
  | .w700 => some .w300
  | .w800 => some .w200
  | .w900 => some .w100

/-- The test of R138 passes a carrier-on pulse after its partner alone. -/
theorem unexpected_eq_false_iff (w : Width) (wOff : Option Width) :
    unexpected w wOff = false ↔ secondPartner w ≠ none ∧ wOff = secondPartner w := by
  rcases wOff with _ | v
  case none => cases w <;> decide
  case some => cases w <;> cases v <;> decide

/-- A carrier-on pulse completes in every state, in one of the three ways of `exec_on_cases`. -/
theorem exec_on_outcome (w : Width) (s : State) :
    ∃ t, exec (Pulse.instr ⟨.carrierOn, w⟩) s = .next t ∧
      ((unexpected w s.wOff = true ∧ t = onUnexpected s w) ∨
       (w ≠ .w900 ∧ unexpected w s.wOff = false ∧ t = onExpected s w) ∨
       (w = .w900 ∧ s.wOff = some .w100 ∧ unexpected w s.wOff = false ∧
          t = (((s.beginPulse ⟨.carrierOn, .w900⟩).append false false).raiseTick).setWOn .w900)) :=
  ⟨_, exec_on w s, exec_on_cases (exec_on w s)⟩

/-- Every carrier-on pulse but `ON.900` keeps the cells, raises the tick after its partner, and counts a bad packet after
anything else (R142 to R144). -/
theorem exec_on_crossChecks {w : Width} (hw : w ≠ .w900) (s : State) :
    ∃ t, exec (Pulse.instr ⟨.carrierOn, w⟩) s = .next t ∧ CellsKept s t ∧
      (secondPartner w ≠ none ∧ s.wOff = secondPartner w → t = onExpected s w) ∧
      (secondPartner w = none ∨ s.wOff ≠ secondPartner w → t = onUnexpected s w) := by
  have hpartner := unexpected_eq_false_iff w s.wOff
  obtain ⟨t, ht, ⟨hu, rfl⟩ | ⟨-, hu, rfl⟩ | ⟨rfl, -⟩⟩ := exec_on_outcome w s
  · exact ⟨_, ht, State.readCell_congr rfl rfl, fun hp => by simp [hpartner.2 hp] at hu, fun _ => rfl⟩
  · obtain ⟨hsome, hoff⟩ := hpartner.1 hu
    exact ⟨_, ht, State.readCell_congr rfl rfl, fun _ => rfl, fun hp => (hp.elim hsome (absurd hoff)).elim⟩
  · exact absurd rfl hw

/-- The record of a carrier-on pulse shows the outcome of the unexpected-pulse test (R138, R141). -/
theorem onPulse_record {w : Width} {s t : State} (h : exec (Pulse.instr ⟨.carrierOn, w⟩) s = .next t) :
    t.out.unexp = unexpected w s.wOff ∧ t.out.tick = !unexpected w s.wOff := by
  rcases exec_on_cases h with ⟨hu, rfl⟩ | ⟨-, hu, rfl⟩ | ⟨-, -, hu, rfl⟩ <;> rw [hu] <;> exact ⟨rfl, rfl⟩

/-- No carrier-off pulse raises the tick (R141). -/
theorem offPulse_no_tick {w : Width} {s t : State} (h : exec (Pulse.instr ⟨.carrierOff, w⟩) s = .next t) :
    t.out.tick = false := by
  cases exec_pulse_ends h <;> rfl

/-- A pulse operation raises the tick exactly as R141 says of its own record. -/
theorem pulse_tick_iff {p : Pulse} {s t : State} (h : exec p.instr s = .next t) :
    t.out.tick = true ↔ ∃ w, t.out.cls = .sym w ∧ t.out.pol = true ∧ unexpected w s.wOff = false := by
  obtain ⟨hcls, hpol, -⟩ := pulse_leaves h
  rcases p with ⟨_ | _, w⟩
  case carrierOff => simp [offPulse_no_tick h, hpol]
  case carrierOn => simp [(onPulse_record h).2, hcls, hpol]

/-- A step whose record shows no pulse satisfies R141 when it raises no tick. -/
theorem tick_iff_of_no_symbol {t : State} {wOff : Option Width} (htick : t.out.tick = false)
    (hcls : ∀ w, t.out.cls ≠ .sym w) :
    t.out.tick = true ↔ ∃ w, t.out.cls = .sym w ∧ t.out.pol = true ∧ unexpected w wOff = false := by
  simp [htick, hcls]

/-- An edge that ends in the classifier raises no tick. -/
theorem edgeEnds_no_tick {d : Direction} {x : Timestamp} {s t : State} (h : EdgeEnds d x s t) : t.out.tick = false := by
  cases h <;> rfl

/-! ## The marker pulse -/

/-- What the marker pulse makes of a state, for a frame result and what the close leaves in `DT` and `DT_OK` (R132). -/
def minuteClosed (s : State) (code : FrameResult) (pg : BitVec 2) (dt : TimeWord) (dtOk : Bool) : State :=
  { s with
    n := 0, bad := 0, wOff := some .w500, fst := { code := code, pg := pg }, dt := dt, dtOk := dtOk,
    out := { cls := .sym .w500, fr := code, pg := pg }, outValid := true }

/-- The marker pulse stops on a passing frame under the reserved century, and nowhere else (R34, R132). -/
theorem exec_off500_completes {s : State}
    (hc : s.century = 0 → ¬ (s.bad = 0 ∧ validate (s.channel .A) (s.channel .B) = .passed)) :
    ∃ u, (s.beginPulse ⟨.carrierOff, .w500⟩).closeMinute = .next u := by
  obtain ⟨hfault, hrefused⟩ := State.closeMinute_stops (s.beginPulse ⟨.carrierOff, .w500⟩)
  simp only [channel_beginPulse] at hrefused
  cases h : (s.beginPulse ⟨.carrierOff, .w500⟩).closeMinute with
  | next u => exact ⟨u, rfl⟩
  | fault f => exact absurd h (hfault f)
  | refused r =>
    obtain ⟨-, hcent, hbad, hv⟩ := hrefused r h
    exact absurd ⟨hbad, hv⟩ (hc hcent)

/-- The three ways the marker pulse completes: the minute is discarded, fails a check, or is delivered (R132, R161). -/
theorem exec_off500_cases {s : State}
    (hc : s.century = 0 → ¬ (s.bad = 0 ∧ validate (s.channel .A) (s.channel .B) = .passed)) :
    (s.handsOver = false ∧ exec .off500 s = .next (minuteClosed s .discarded 0 s.dt s.dtOk)) ∨
    (s.handsOver = true ∧ ∃ c g,
      (c = .length ∧ g = 0 ∧ validate (s.channel .A) (s.channel .B) = .failed .lengthMismatch ∨
        c = .marker ∧ g = 0 ∧ validate (s.channel .A) (s.channel .B) = .failed .markerNotFound ∨
        c = .parity ∧ validate (s.channel .A) (s.channel .B) = .failed (.parityFailure g)) ∧
      exec .off500 s = .next (minuteClosed s c g s.dt s.dtOk)) ∨
    (s.handsOver = true ∧ validate (s.channel .A) (s.channel .B) = .passed ∧
      exec .off500 s = .next
        (minuteClosed s .ok 0 (packTime (decodeTime s.century (s.channel .A) (s.channel .B))) true)) := by
  obtain ⟨u, hu⟩ := exec_off500_completes hc
  rw [exec_off500, hu, andThen_next]
  have hcases := State.closeMinute_cases hu
  simp only [channel_beginPulse] at hcases
  rcases hcases with ⟨hh, rfl⟩ | ⟨hh, c, g, hcg, rfl⟩ | ⟨hh, hv, -, rfl⟩
  · exact .inl ⟨hh, rfl⟩
  · exact .inr (.inl ⟨hh, c, g, hcg, rfl⟩)
  · exact .inr (.inr ⟨hh, hv, rfl⟩)

/-! ## The statements -/

/-- Settles O33: the tri-transition is the one case in which `OFF.100` has a pair. -/
theorem off100AppendsOnTheTriTransition : Obligations.Off100AppendsOnTheTriTransition := by
  intro s hA hB
  by_cases htri : s.wOn = some .w100 ∧ s.wOff = some .w100
  · obtain ⟨t, ht, hframe, hcells⟩ := exec_off_appends (w := .w100) hA hB (if_pos htri)
    exact ⟨t, ht, fun _ => ⟨hframe, hcells⟩, absurd htri⟩
  · exact ⟨_, exec_off_stores (w := .w100) (by decide) (if_neg htri), (absurd · htri),
      fun _ => ⟨rfl, State.readCell_congr rfl rfl⟩⟩

/-- Settles O34: `OFF.200` always has the pair (1,0). -/
theorem off200AppendsOneZero : Obligations.Off200AppendsOneZero :=
  fun _ hA hB => exec_off_appends (w := .w200) hA hB rfl

/-- Settles O35: `OFF.300` always has the pair (1,1). -/
theorem off300AppendsOneOne : Obligations.Off300AppendsOneOne :=
  fun _ hA hB => exec_off_appends (w := .w300) hA hB rfl

/-- Settles O36: the four widths have no pair, and the carrier-on pulses with one of them as partner are those of the
list. -/
theorem otherOffPulsesOnlyStoreTheirWidth : Obligations.OtherOffPulsesOnlyStoreTheirWidth := by
  intro s i w hmem
  simp only [List.mem_cons, Prod.mk.injEq, List.not_mem_nil, or_false] at hmem
  have hpulse : i = Pulse.instr ⟨.carrierOff, w⟩ ∧ w ≠ .w500 ∧ offPair s w = none := by
    rcases hmem with ⟨rfl, rfl⟩ | ⟨rfl, rfl⟩ | ⟨rfl, rfl⟩ | ⟨rfl, rfl⟩ <;> exact ⟨rfl, by decide, rfl⟩
  have hnext : ∀ x, unexpected x (some w) = false ↔
      (w, x) ∈ [(Width.w700, Width.w300), (.w800, .w200), (.w900, .w100)] := by
    intro x
    rw [unexpected_eq_false_iff]
    rcases hmem with ⟨-, rfl⟩ | ⟨-, rfl⟩ | ⟨-, rfl⟩ | ⟨-, rfl⟩ <;> cases x <;> decide
  obtain ⟨rfl, hw, hpair⟩ := hpulse
  refine ⟨_, exec_off_stores hw hpair, rfl, State.readCell_congr rfl rfl, fun x => ?_⟩
  obtain ⟨u, hu, -⟩ := exec_on_outcome x { s with wOff := some w, out := { cls := .sym w }, outValid := true }
  refine ⟨u, hu, ?_⟩
  rw [(onPulse_record hu).1]
  exact hnext x

/-- Settles O37: the minute is discarded where it is not handed over, and otherwise the validator's verdict is the
result. -/
theorem markerPulseClosesTheMinute : Obligations.MarkerPulseClosesTheMinute := by
  intro s hc
  simp only [← State.handsOver_iff]
  rcases exec_off500_cases hc with ⟨hh, ht⟩ | ⟨hh, c, g, hcg, ht⟩ | ⟨hh, hv, ht⟩
  · exact ⟨_, _, _, ht, rfl, State.readCell_congr rfl rfl, fun _ => ⟨rfl, rfl, rfl, rfl⟩, by simp [hh]⟩
  · refine ⟨_, _, _, ht, rfl, State.readCell_congr rfl rfl, (absurd hh ·), fun _ => ?_⟩
    rcases hcg with ⟨rfl, rfl, hv⟩ | ⟨rfl, rfl, hv⟩ | ⟨rfl, hv⟩ <;> simp [hv, minuteClosed]
  · exact ⟨_, _, _, ht, rfl, State.readCell_congr rfl rfl, (absurd hh ·), fun _ => by simp [hv, minuteClosed]⟩

/-- Settles O39: the partner of `ON.900` is the 100 ms carrier-off pulse, after which it appends. -/
theorem on900CompletesAZeroSecond : Obligations.On900CompletesAZeroSecond := by
  intro s hA hB
  have hpartner : unexpected .w900 s.wOff = false ↔ s.wOff = some .w100 := by
    simp [unexpected_eq_false_iff, secondPartner]
  obtain ⟨t, ht, ⟨hu, rfl⟩ | ⟨hw, -⟩ | ⟨-, hoff, -, rfl⟩⟩ := exec_on_outcome .w900 s
  · exact ⟨_, ht, fun hoff => by simp [hpartner.2 hoff] at hu, fun _ => ⟨rfl, State.readCell_congr rfl rfl⟩⟩
  · exact absurd rfl hw
  · exact ⟨_, ht, fun _ => ⟨rfl, State.append_cells false false hA hB rfl rfl⟩, absurd hoff⟩

/-- Settles O40: the partner of `ON.500` is the marker pulse. -/
theorem on500IsTheSecondMarker : Obligations.On500IsTheSecondMarker := by
  intro s
  obtain ⟨t, ht, hcells, hexp, hunexp⟩ := exec_on_crossChecks (w := .w500) (by decide) s
  exact ⟨t, ht, hcells, fun hoff => hexp ⟨nofun, hoff⟩, fun hoff => hunexp (.inr hoff)⟩

/-- Settles O41: the partner of `ON.700` is the 300 ms carrier-off pulse. -/
theorem on700FollowsOff300 : Obligations.On700FollowsOff300 := by
  intro s
  obtain ⟨t, ht, hcells, hexp, hunexp⟩ := exec_on_crossChecks (w := .w700) (by decide) s
  exact ⟨t, ht, hcells, fun hoff => hexp ⟨nofun, hoff⟩, fun hoff => hunexp (.inr hoff)⟩

/-- Settles O42: the third entry of each row is the partner of its width. -/
theorem otherOnPulsesCrossCheckTheSecond : Obligations.OtherOnPulsesCrossCheckTheSecond := by
  intro s i w v hmem
  have hpulse : i = Pulse.instr ⟨.carrierOn, w⟩ ∧ v = secondPartner w ∧ w ≠ .w900 := by
    simp only [List.mem_cons, Prod.mk.injEq, List.not_mem_nil, or_false] at hmem
    rcases hmem with ⟨rfl, rfl, rfl⟩ | ⟨rfl, rfl, rfl⟩ | ⟨rfl, rfl, rfl⟩ | ⟨rfl, rfl, rfl⟩ | ⟨rfl, rfl, rfl⟩ <;>
      exact ⟨rfl, rfl, by decide⟩
  obtain ⟨rfl, rfl, hw⟩ := hpulse
  exact exec_on_crossChecks hw s

/-- Settles O51: only a pulse can raise the tick, and an edge that dispatches one has left `w_off` alone. -/
theorem tickExactlyOnExpectedCarrierOn : Obligations.TickExactlyOnExpectedCarrierOn := by
  intro i s t h
  refine exec_elim h ?stopped ?reset ?wdog ?stop ?edge ?pulse
  case stopped =>
    rintro - - rfl
    exact tick_iff_of_no_symbol rfl nofun
  case reset =>
    rintro - rfl
    exact tick_iff_of_no_symbol rfl nofun
  case wdog =>
    rintro - - rfl
    exact tick_iff_of_no_symbol rfl nofun
  case stop =>
    rintro - - rfl
    exact tick_iff_of_no_symbol rfl nofun
  case edge =>
    rintro d x - - he
    exact tick_iff_of_no_symbol (edgeEnds_no_tick he) (edgeEnds_noPulse he).cls
  case pulse =>
    intro p s' hs' hp
    have hoff : s'.wOff = s.wOff := by
      rcases hs' with ⟨rfl, -⟩ | ⟨d, x, -, -, -, rfl⟩
      · rfl
      · rw [State.setTs_wOff, State.beginStep_wOff]
    rw [← hoff]
    exact pulse_tick_iff hp

end Sys2Proof.Proofs
end

section
/-! PROOFS. The validator and decoder of `42_validator_decoder.md`: each check answers its own failure once the checks
before it have passed (R161 to R164), and a BCD field is the sum of the nibbles of its packed slice (R171). -/

open Sys2Proof Sys2Proof.Machine

namespace Sys2Proof.Proofs

/-! ## The checks of R162 to R164 -/

/-- The marker check reads the eight bits from index 51 (R163). -/
theorem markerHolds_iff {a : List Bool} :
    markerHolds a = true ↔ slice a 51 8 = [false, true, true, true, true, true, true, false] :=
  decide_eq_true_iff

/-- Group 0 is the year field against `B[53]` (R164). -/
theorem groupFails_year_iff {a b : List Bool} :
    groupFails a b 0 = true ↔ par (slice a 16 8) = (bitAt b 53).toNat := decide_eq_true_iff

/-- Group 1 is the month and day field against `B[54]` (R164). -/
theorem groupFails_monthDay_iff {a b : List Bool} :
    groupFails a b 1 = true ↔ par (slice a 24 11) = (bitAt b 54).toNat := decide_eq_true_iff

/-- Group 2 is the weekday field against `B[55]` (R164). -/
theorem groupFails_weekday_iff {a b : List Bool} :
    groupFails a b 2 = true ↔ par (slice a 35 3) = (bitAt b 55).toNat := decide_eq_true_iff

/-- Group 3 is the hour and minute field against `B[56]` (R164). -/
theorem groupFails_hourMinute_iff {a b : List Bool} :
    groupFails a b 3 = true ↔ par (slice a 38 13) = (bitAt b 56).toNat := decide_eq_true_iff

/-- Check 1 fails whatever the bits are (R162). -/
theorem validate_of_length_ne {a b : List Bool} (hlen : a.length ≠ 59) : validate a b = .failed .lengthMismatch :=
  if_pos hlen

/-- Check 2 fails on a frame of the right length without the marker (R163). -/
theorem validate_of_no_marker {a b : List Bool} (hlen : a.length = 59) (hmark : markerHolds a = false) :
    validate a b = .failed .markerNotFound := by
  rw [validate, if_neg (not_not.mpr hlen), if_pos hmark]

/-- Check 3 answers the first group that fails, in the order of R164. -/
theorem validate_of_first_group {a b : List Bool} {before after : List (BitVec 2)} {g : BitVec 2}
    (hlen : a.length = 59) (hmark : markerHolds a = true) (hsplit : parityGroups = before ++ g :: after)
    (hbefore : ∀ k ∈ before, groupFails a b k = false) (hg : groupFails a b g = true) :
    validate a b = .failed (.parityFailure g) := by
  have hfind : parityGroups.find? (groupFails a b) = some g :=
    List.find?_eq_some_iff_append.mpr ⟨hg, before, after, hsplit, fun k hk => by simp [hbefore k hk]⟩
  have hmark' : ¬ markerHolds a = false := by simp [hmark]
  rw [validate, if_neg (not_not.mpr hlen), if_neg hmark', hfind]

/-- Settles O45: the five tests are those of the obligation, and the model's checks run in its order. -/
theorem validatorReportsTheFirstFailure : Obligations.ValidatorReportsTheFirstFailure := by
  intro a b
  simp only [← markerHolds_iff, ← groupFails_year_iff, ← groupFails_monthDay_iff, ← groupFails_weekday_iff,
    ← groupFails_hourMinute_iff, Bool.not_eq_true]
  refine ⟨validate_of_length_ne, ?marker, ?year, ?monthDay, ?weekday, ?hourMinute, ?passed⟩
  case marker =>
    rintro ⟨hlen, hmark⟩
    exact validate_of_no_marker hlen hmark
  case year =>
    rintro ⟨hlen, hmark, h0⟩
    exact validate_of_first_group (before := []) hlen hmark rfl nofun h0
  case monthDay =>
    rintro ⟨hlen, hmark, h0, h1⟩
    exact validate_of_first_group (before := [0]) hlen hmark rfl (by simpa using h0) h1
  case weekday =>
    rintro ⟨hlen, hmark, h0, h1, h2⟩
    exact validate_of_first_group (before := [0, 1]) hlen hmark rfl (by simpa using ⟨h0, h1⟩) h2
  case hourMinute =>
    rintro ⟨hlen, hmark, h0, h1, h2, h3⟩
    exact validate_of_first_group (before := [0, 1, 2]) hlen hmark rfl (by simpa using ⟨h0, h1, h2⟩) h3
  case passed =>
    rintro ⟨hlen, hmark, h0, h1, h2, h3⟩
    exact validate_passed.mpr ⟨hlen, hmark, by simpa [parityGroups] using ⟨h0, h1, h2, h3⟩⟩

/-! ## The packed slice -/

/-- Packing shifts what is already packed past all the bits that follow. -/
theorem packMsb_fold (v : Nat) (bits : List Bool) :
    bits.foldl (fun v b => 2 * v + b.toNat) v = v * 2 ^ bits.length + packMsb bits := by
  induction bits generalizing v with
  | nil => simp [packMsb]
  | cons b bits ih =>
    rw [packMsb, List.foldl_cons, List.foldl_cons, ih, ih, List.length_cons]
    ring

/-- The first bit of a packed slice is the most significant (R52). -/
theorem packMsb_cons (b : Bool) (bits : List Bool) :
    packMsb (b :: bits) = b.toNat * 2 ^ bits.length + packMsb bits := by
  rw [packMsb, List.foldl_cons, packMsb_fold, Nat.mul_zero, Nat.zero_add]

/-- A packed slice has no more binary digits than the slice has bits. -/
theorem packMsb_lt (bits : List Bool) : packMsb bits < 2 ^ bits.length := by
  induction bits with
  | nil => simp [packMsb]
  | cons b bits ih =>
    have hb : b.toNat * 2 ^ bits.length ≤ 1 * 2 ^ bits.length := Nat.mul_le_mul_right _ b.toNat_le
    rw [packMsb_cons, List.length_cons, Nat.pow_succ]
    omega

/-- The packed slice as its positional sum. -/
theorem packMsb_eq_sum (bits : List Bool) :
    packMsb bits = ((List.range bits.length).map
      (fun i => (bits.getD i false).toNat * 2 ^ (bits.length - 1 - i))).sum := by
  induction bits with
  | nil => rfl
  | cons b bits ih =>
    have hfirst : bits.length + 1 - 1 - 0 = bits.length := rfl
    have hrest (i : Nat) : bits.length + 1 - 1 - (i + 1) = bits.length - 1 - i := by omega
    simp only [packMsb_cons, List.length_cons, List.range_succ_eq_map, List.map_cons, List.map_map, List.sum_cons,
      Function.comp_def, List.getD_cons_zero, List.getD_cons_succ, hfirst, hrest, ← ih]

/-! ## The nibble sum -/

/-- The nibble sum with each nibble named by its position. -/
theorem nibbleSum_eq_sum (k v : Nat) :
    nibbleSum k v = ((List.range k).map (fun j => v / 16 ^ j % 16 * 10 ^ j)).sum := by
  induction k generalizing v with
  | zero => rfl
  | succ k ih =>
    have hterm (j : Nat) : v / 16 ^ (j + 1) % 16 * 10 ^ (j + 1) = 10 * (v / 16 / 16 ^ j % 16 * 10 ^ j) := by
      rw [Nat.div_div_eq_div_mul, Nat.pow_succ', Nat.pow_succ']
      ring
    rw [nibbleSum, ih, List.range_succ_eq_map]
    simp [Function.comp_def, hterm, List.sum_map_mul_left]

/-- The nibbles of 0 sum to 0, however many are taken. -/
theorem nibbleSum_zero (k : Nat) : nibbleSum k 0 = 0 := by
  induction k with
  | zero => rfl
  | succ k ih => simp [nibbleSum, ih]

/-- Nibbles above the highest one of `v` add nothing. -/
theorem nibbleSum_of_lt {k m v : Nat} (hv : v < 16 ^ k) (hkm : k ≤ m) : nibbleSum m v = nibbleSum k v := by
  induction k generalizing m v with
  | zero =>
    obtain rfl : v = 0 := by omega
    exact nibbleSum_zero m
  | succ k ih =>
    obtain ⟨m, rfl⟩ : ∃ l, m = l + 1 := ⟨m - 1, by omega⟩
    have hhigh : v / 16 < 16 ^ k := by omega
    rw [nibbleSum, nibbleSum, ih hhigh (by omega)]

/-- The nibbles `bcd` takes hold the whole packed slice. -/
theorem packMsb_lt_nibbles (bits : List Bool) : packMsb bits < 16 ^ ((bits.length + 3) / 4) :=
  calc packMsb bits < 2 ^ bits.length := packMsb_lt bits
    _ ≤ 2 ^ (4 * ((bits.length + 3) / 4)) := Nat.pow_le_pow_right (by decide) (by omega)
    _ = 16 ^ ((bits.length + 3) / 4) := Nat.pow_mul 2 4 _

/-- Settles O48: the obligation sums over one position per bit, and those above the last nibble add nothing. -/
theorem bcdIsTheNibbleSum : Obligations.BcdIsTheNibbleSum := by
  intro bits
  refine ⟨?_, packMsb_eq_sum bits⟩
  rw [bcd, ← nibbleSum_of_lt (packMsb_lt_nibbles bits) (by omega : (bits.length + 3) / 4 ≤ bits.length),
    nibbleSum_eq_sum]

end Sys2Proof.Proofs
end

section
/-! PROOFS. The control events of `43_control_events.md`: `RESET` in every state (R190), `WDOG` and `STOP` with `run = 1`
(R191, R192), and what every event does while `run = 0` (R193). -/

open Sys2Proof Sys2Proof.Machine

namespace Sys2Proof.Proofs

/-! ## One equation per control event -/

/-- `RESET` does not ask for `run` (R190). -/
theorem exec_reset (s : State) :
    exec .reset s = .next { s with
      tsRise := 0, tsFall := 0, skip := false, wOn := none, wOff := none, n := 0, bad := 0, run := true,
      fst := { code := .noFrame, pg := 0 }, dt := 0, dtOk := false, out := {}, outValid := true } := rfl

theorem exec_wdog_running {s : State} (hr : s.run = true) :
    exec .wdog s = .next { s.beginStep.clearDecoder with out := { wd := true } } := if_pos hr

theorem exec_stop_running {s : State} (hr : s.run = true) :
    exec .stop s = .next { s.beginStep with run := false } := if_pos hr

/-- While `run = 0` an edge, `WDOG` and `STOP` are one and the same step (R193). -/
theorem exec_event_stopped {i : Instr} {s : State} (hr : s.run = false)
    (hi : (∃ d t, i = edge d t) ∨ i = .wdog ∨ i = .stop) : exec i s = .next s.stoppedStep := by
  have hoff : ¬ s.run = true := Bool.eq_false_iff.mp hr
  rcases hi with ⟨d, t, rfl⟩ | rfl | rfl
  case inl => rw [exec_edge, edgeStep_stopped hr]
  case inr.inl => exact if_neg hoff
  case inr.inr => exact if_neg hoff

/-! ## Leaving `run = 0` -/

/-- Every operation but `RESET` leaves a stopped block stopped (R190, R193): `WDOG`, `STOP` and the edges are dropped,
and a pulse operation does not write `run`. -/
theorem exec_keeps_stopped {i : Instr} {s t : State} (h : exec i s = .next t) (hr : s.run = false) (hi : i ≠ .reset) :
    t.run = false := by
  have hoff : s.run ≠ true := Bool.eq_false_iff.mp hr
  refine exec_elim h ?stopped ?reset ?wdog ?stop ?edge ?pulse
  case stopped =>
    rintro - - rfl
    exact hr
  case reset => exact fun hreset _ => absurd hreset hi
  case wdog => exact fun _ hon _ => absurd hon hoff
  case stop => exact fun _ hon _ => absurd hon hoff
  case edge => exact fun _ _ _ hon _ => absurd hon hoff
  case pulse =>
    rintro p s' (⟨rfl, -⟩ | ⟨_, _, -, hon, -⟩) hp
    · obtain ⟨-, -, -, hrun, -⟩ := pulse_leaves hp
      exact hrun.trans hr
    · exact absurd hon hoff

/-! ## The statements -/

/-- Settles O16: `RESET` by its equation, and any other operation would have left `run = 0`. -/
theorem resetInstallsTheResetValues : Obligations.ResetInstallsTheResetValues := by
  refine ⟨exec_reset, fun i s t h hstopped hruns => ?_⟩
  by_contra hi
  exact Bool.eq_false_iff.mp (exec_keeps_stopped h hstopped hi) hruns

/-- Settles O17: the decoder part is what `clearDecoder` writes. -/
theorem watchdogClearsTheDecoder : Obligations.WatchdogClearsTheDecoder :=
  fun _ => ⟨exec_wdog_running, fun hr => exec_event_stopped hr (.inr (.inl rfl))⟩

/-- Settles O18: a step of a running block that writes `run` alone. -/
theorem stopClearsRun : Obligations.StopClearsRun :=
  fun _ => ⟨exec_stop_running, fun hr => exec_event_stopped hr (.inr (.inr rfl))⟩

/-- Settles O19: the step while stopped, and its record has the code `0xD` on top and zeros below. -/
theorem eventsWhileStoppedChangeNothing : Obligations.EventsWhileStoppedChangeNothing :=
  ⟨fun _ _ hr hi => exec_event_stopped hr hi, by decide⟩

end Sys2Proof.Proofs
end

section
/-! PROOFS. The statement of `70_reset_and_hazards.md`: once stopped, only `RESET` goes on (R251). -/

open Sys2Proof Sys2Proof.Machine

namespace Sys2Proof.Proofs

/-! ## A run while stopped -/

theorem runOuts_cons_next {i : Instr} {s t : State} (is : List Instr) (h : exec i s = .next t) :
    runOuts (i :: is) s = (t.out :: (runOuts is t).1, (runOuts is t).2) := by
  simp only [runOuts, h]

/-- While `run = 0` every event of a run is the stopped step, which leaves the next event a stopped block (R193). -/
theorem runOuts_events_stopped {is : List Instr} {s : State} (hr : s.run = false)
    (his : ∀ i ∈ is, (∃ d t, i = edge d t) ∨ i = .wdog ∨ i = .stop) :
    ∃ t, runOuts is s = (List.replicate is.length { cls := .stopped }, some t) ∧
      t = { s with out := t.out, outValid := t.outValid } := by
  induction is generalizing s with
  | nil => exact ⟨s, rfl, rfl⟩
  | cons i is ih =>
    obtain ⟨hi, his⟩ := List.forall_mem_cons.1 his
    obtain ⟨t, hrun, ht⟩ := ih (s := s.stoppedStep) (by rw [State.stoppedStep_run, hr]) his
    refine ⟨t, ?_, ht⟩
    rw [runOuts_cons_next is (exec_event_stopped hr hi), hrun, State.stoppedStep_out, List.length_cons,
      List.replicate_succ]

/-- `STOP` leaves a stopped block, whether it was running or not (R192, R193). -/
theorem exec_stop_run {s t : State} (h : exec .stop s = .next t) : t.run = false := by
  cases hr : s.run with
  | true =>
    obtain rfl : { s.beginStep with run := false } = t := Host.Outcome.next.inj ((exec_stop_running hr).symm.trans h)
    rfl
  | false => exact exec_keeps_stopped h hr (by decide)

/-! ## The statement -/

/-- Settles O20: `STOP` leaves a stopped block, a run of events leaves it so, and `RESET` by its equation. -/
theorem stopIsFinalUntilReset : Obligations.StopIsFinalUntilReset := by
  intro s s1 hstop is his
  obtain ⟨t, hrun, ht⟩ := runOuts_events_stopped (exec_stop_run hstop) his
  rw [hrun]
  exact ⟨rfl, t, rfl, ht, _, exec_reset t, rfl, rfl, rfl⟩

end Sys2Proof.Proofs
end

section
/-! PROOFS. The words of `30_encoding.md`. Every word of the block is a row of fields, each put at its lowest bit by
`placeAt` (R8): a slice at a field's own bits reads that field and no other, and the neighbouring slices of a word, put
back, give the slice over both. Both directions of every layout (R71, R75, R78, R79) follow from these two facts. -/

open Sys2Proof Sys2Proof.Machine

namespace Sys2Proof.Proofs

/-! ## Fields of a word -/

theorem getLsbD_placeAt (w lo i : Nat) {k : Nat} (x : BitVec k) :
    (placeAt w lo x).getLsbD i = (decide (i < w) && decide (lo ≤ i) && x.getLsbD (i - lo)) := by
  by_cases hlo : lo ≤ i
  · by_cases hw : i < w
    · have hrest : i - lo < w := by omega
      simp only [placeAt, BitVec.getLsbD_shiftLeft, BitVec.getLsbD_setWidth]
      simp [hlo, hw, hrest]
    · simp [placeAt, hw]
  · simp [placeAt, hlo, Nat.lt_of_not_le hlo]

/-- The slice at a field's own bits is the field. -/
theorem extractLsb'_placeAt_same {w lo k : Nat} (x : BitVec k) (h : lo + k ≤ w) :
    (placeAt w lo x).extractLsb' lo k = x := by
  refine BitVec.eq_of_getLsbD_eq fun i hi => ?_
  have hin : lo + i < w := by omega
  simp only [BitVec.getLsbD_extractLsb', getLsbD_placeAt]
  simp [hi, hin]

/-- A slice above a field reads zeros. -/
theorem extractLsb'_placeAt_below {w lo k start len : Nat} (x : BitVec k) (h : lo + k ≤ start) :
    (placeAt w lo x).extractLsb' start len = 0#len := by
  refine BitVec.eq_of_getLsbD_eq fun i hi => ?_
  have hout : x.getLsbD (start + i - lo) = false := BitVec.getLsbD_of_ge _ _ (by omega)
  simp [BitVec.getLsbD_extractLsb', getLsbD_placeAt, hout]

/-- A slice below a field reads zeros. -/
theorem extractLsb'_placeAt_above {w lo k start len : Nat} (x : BitVec k) (h : start + len ≤ lo) :
    (placeAt w lo x).extractLsb' start len = 0#len := by
  refine BitVec.eq_of_getLsbD_eq fun i hi => ?_
  have hout : ¬ lo ≤ start + i := by omega
  simp [BitVec.getLsbD_extractLsb', getLsbD_placeAt, hout]

theorem getLsbD_eq_of_extractLsb' {w i : Nat} {x : BitVec w} {b : Bool} (h : x.extractLsb' i 1 = BitVec.ofBool b) :
    x.getLsbD i = b := by
  have hbit := congrArg (fun v => v.getLsbD 0) h
  simpa [BitVec.getLsbD_extractLsb'] using hbit

/-- Two neighbouring slices of a word, put back, are the slice over both put back. -/
theorem placeAt_slices {w lo mid k len : Nat} (x : BitVec w) (hmid : lo + len = mid) :
    placeAt w mid (x.extractLsb' mid k) ||| placeAt w lo (x.extractLsb' lo len) =
      placeAt w lo (x.extractLsb' lo (len + k)) := by
  refine BitVec.eq_of_getLsbD_eq fun i hi => ?_
  simp only [BitVec.getLsbD_or, getLsbD_placeAt, BitVec.getLsbD_extractLsb']
  by_cases hlo : lo ≤ i
  · by_cases hm : mid ≤ i
    · have h1 : mid + (i - mid) = lo + (i - lo) := by omega
      have h2 : ¬ i - lo < len := by omega
      have h3 : i - mid < k ↔ i - lo < len + k := by omega
      simp [hlo, hm, hi, h1, h2, h3]
    · have h1 : i - lo < len := by omega
      have h2 : i - lo < len + k := by omega
      simp [hlo, hm, h1, h2]
  · have hm : ¬ mid ≤ i := by omega
    simp [hlo, hm]

/-- The slice over all bits of a word is the word. -/
theorem placeAt_whole {w : Nat} (x : BitVec w) : placeAt w 0 (x.extractLsb' 0 w) = x := by
  refine BitVec.eq_of_getLsbD_eq fun i hi => ?_
  simp only [getLsbD_placeAt, BitVec.getLsbD_extractLsb']
  simp [hi]

theorem ofBool_getLsbD {w i : Nat} (x : BitVec w) : BitVec.ofBool (x.getLsbD i) = x.extractLsb' i 1 := by
  refine BitVec.eq_of_getLsbD_eq fun j hj => ?_
  obtain rfl : j = 0 := by omega
  simp

/-! ## The event word -/

theorem eventWord_kind (kind : BitVec 2) (ts : Timestamp) : (eventWord kind ts).extractLsb' 32 2 = kind := by
  rw [eventWord, BitVec.extractLsb'_or, extractLsb'_placeAt_same _ (by decide),
    extractLsb'_placeAt_below _ (by decide), BitVec.or_zero]

theorem eventWord_ts (kind : BitVec 2) (ts : Timestamp) : (eventWord kind ts).setWidth 32 = ts := by
  rw [BitVec.setWidth_eq_extractLsb' (by decide), eventWord, BitVec.extractLsb'_or,
    extractLsb'_placeAt_same _ (by decide), extractLsb'_placeAt_above _ (by decide), BitVec.zero_or]

/-- An event word is its `kind` and its `ts` (R71). -/
theorem eventWord_slices (w : EventWord) : eventWord (w.extractLsb' 32 2) (w.extractLsb' 0 32) = w := by
  exact (placeAt_slices (lo := 0) (mid := 32) w rfl).trans (placeAt_whole w)

theorem decodeEvent_edgeF (ts : Timestamp) : decodeEvent (eventWord 0 ts) = .edgeF ts := by
  rw [decodeEvent_of_kind_zero (eventWord_kind 0 ts), eventWord_ts]

theorem decodeEvent_edgeR (ts : Timestamp) : decodeEvent (eventWord 1 ts) = .edgeR ts := by
  rw [decodeEvent_of_kind_one (eventWord_kind 1 ts), eventWord_ts]

theorem decodeEvent_wdog (ts : Timestamp) : decodeEvent (eventWord 2 ts) = .wdog :=
  decodeEvent_of_kind_two (eventWord_kind 2 ts)

theorem decodeEvent_stop (ts : Timestamp) : decodeEvent (eventWord 3 ts) = .stop :=
  decodeEvent_of_kind_three (eventWord_kind 3 ts)

/-- The four values of `kind` (R72). -/
theorem kind_cases (k : BitVec 2) : k = 0 ∨ k = 1 ∨ k = 2 ∨ k = 3 := by
  revert k
  decide

/-! ## The dispatch word -/

/-- The symbol codes are those of the widths and no others (R74). -/
theorem width_ofCode_eq_some_iff {c : BitVec 4} {w : Width} : Width.ofCode c = some w ↔ w.code = c := by
  revert c
  cases w <;> decide

/-- A dispatch word is legal when its code is that of a width (R75, R83 (e)). -/
theorem legalPulseCode_eq (c : BitVec 4) : legalPulseCode c = (Width.ofCode c).isSome := by
  revert c
  decide

theorem encode_pulse (p : Pulse) : encode p.instr = .pulse p.encode := by
  rcases p with ⟨_ | _, w⟩ <;> cases w <;> rfl

/-- The code field of a dispatch word is the width's code, and its top bit the polarity (R75). -/
theorem pulse_encode_fields (p : Pulse) :
    p.encode.extractLsb' 0 4 = p.width.code ∧ p.encode.getLsbD 4 = decide (p.pol = .carrierOn) := by
  constructor
  · rw [Pulse.encode, BitVec.extractLsb'_or, extractLsb'_placeAt_same _ (by decide),
      extractLsb'_placeAt_above _ (by decide), BitVec.zero_or]
  · refine getLsbD_eq_of_extractLsb' ?_
    rw [Pulse.encode, BitVec.extractLsb'_or, extractLsb'_placeAt_same _ (by decide),
      extractLsb'_placeAt_below _ (by decide), BitVec.or_zero]

theorem decodePulse_encode (p : Pulse) : decodePulse p.encode = .ok p := by
  obtain ⟨hcode, hpol⟩ := pulse_encode_fields p
  have hwidth : Width.ofCode p.width.code = some p.width := width_ofCode_eq_some_iff.2 rfl
  simp only [decodePulse, hcode, hwidth, hpol]
  rcases p with ⟨_ | _, w⟩ <;> rfl

/-- A dispatch word that decodes is the word of its pulse. -/
theorem encode_of_decodePulse {w : PulseWord} {p : Pulse} (h : decodePulse w = .ok p) : p.encode = w := by
  unfold decodePulse at h
  split at h
  case h_2 => exact absurd h nofun
  case h_1 v hv =>
    have hcode : v.code = w.extractLsb' 0 4 := width_ofCode_eq_some_iff.1 hv
    have hpol : decide ((if w.getLsbD 4 = true then Polarity.carrierOn else .carrierOff) = .carrierOn) =
        w.getLsbD 4 := by
      cases w.getLsbD 4 <;> rfl
    obtain rfl := Except.ok.inj h
    rw [Pulse.encode, hcode, hpol, ofBool_getLsbD]
    exact (placeAt_slices (lo := 0) (mid := 4) w rfl).trans (placeAt_whole w)

/-- A dispatch word decodes exactly when it is well-formed, and is rejected by name otherwise (R83 (e)). -/
theorem decodePulse_of_wf {w : PulseWord} (h : wfPulseWord w = true) : ∃ p, decodePulse w = .ok p := by
  rw [wfPulseWord, legalPulseCode_eq] at h
  obtain ⟨v, hv⟩ := Option.isSome_iff_exists.1 h
  exact ⟨⟨if w.getLsbD 4 then .carrierOn else .carrierOff, v⟩, by simp only [decodePulse, hv]⟩

theorem decodePulse_of_not_wf {w : PulseWord} (h : wfPulseWord w = false) :
    decodePulse w = .error (.reservedPulseCode w) := by
  rw [wfPulseWord, legalPulseCode_eq, Option.isSome_eq_false_iff, Option.isNone_iff_eq_none] at h
  simp only [decodePulse, h]

theorem decode_pulse_ok {w : PulseWord} {p : Pulse} (h : decodePulse w = .ok p) : decode (.pulse w) = .ok p.instr := by
  simp only [decode, h]

theorem decode_pulse_error {w : PulseWord} {e : DecodeReject} (h : decodePulse w = .error e) :
    decode (.pulse w) = .error e := by
  simp only [decode, h]

/-! ## Decode and encode -/

/-- Settles O1: the fields of an event word and of a dispatch word are read back. -/
theorem decodeInvertsEncode : Obligations.DecodeInvertsEncode := by
  intro i
  rcases instr_cases i with ⟨d, t, rfl⟩ | rfl | rfl | rfl | ⟨p, rfl⟩
  case inl =>
    cases d
    case rising => exact congrArg Except.ok (decodeEvent_edgeR t)
    case falling => exact congrArg Except.ok (decodeEvent_edgeF t)
  case inr.inl => exact congrArg Except.ok (decodeEvent_wdog 0)
  case inr.inr.inl => exact congrArg Except.ok (decodeEvent_stop 0)
  case inr.inr.inr.inl => rfl
  case inr.inr.inr.inr =>
    rw [encode_pulse]
    exact decode_pulse_ok (decodePulse_encode p)

/-- The mask of R72 on a word of known fields keeps its `kind` and clears its `ts`. -/
theorem eventWord_masked (kind : BitVec 2) (ts : Timestamp) :
    eventWord kind ts &&& 0x300000000#34 = eventWord kind 0 := by
  have hmask : (0x300000000#34).extractLsb' 32 2 = BitVec.allOnes 2 ∧ (0x300000000#34).extractLsb' 0 32 = 0#32 := by
    decide
  rw [← eventWord_slices (eventWord kind ts &&& 0x300000000#34), BitVec.extractLsb'_and, BitVec.extractLsb'_and,
    hmask.1, hmask.2, BitVec.and_allOnes, eventWord_kind, BitVec.and_zero]
  rfl

/-- Bit 33 of an event word is the upper bit of its `kind`. -/
theorem eventWord_getLsbD_top (kind : BitVec 2) (ts : Timestamp) :
    (eventWord kind ts).getLsbD 33 = kind.getLsbD 1 := by
  rw [← eventWord_kind kind ts, BitVec.getLsbD_extractLsb', eventWord_kind]
  simp

/-- Settles O2: an event word is encoded from the fields it was decoded into; a dispatch word likewise, where its code
is that of a width. -/
theorem encodeInvertsDecode : Obligations.EncodeInvertsDecode := by
  refine ⟨fun w => ?event, fun w hw => ?legal, fun w hw => ?reserved⟩
  case event =>
    rw [← eventWord_slices w]
    generalize w.extractLsb' 32 2 = kind
    generalize w.extractLsb' 0 32 = ts
    rw [eventWord_getLsbD_top, eventWord_masked]
    rcases kind_cases kind with rfl | rfl | rfl | rfl
    · rw [decodeEvent_edgeF]
      rfl
    · rw [decodeEvent_edgeR]
      rfl
    · rw [decodeEvent_wdog]
      rfl
    · rw [decodeEvent_stop]
      rfl
  case legal =>
    obtain ⟨p, hp⟩ := decodePulse_of_wf hw
    exact ⟨p.instr, decode_pulse_ok hp, by rw [encode_pulse, encode_of_decodePulse hp]⟩
  case reserved => exact decode_pulse_error (decodePulse_of_not_wf hw)

/-- Settles O4: each word is that of its pulse. -/
theorem dispatchWordsOfTheTable : Obligations.DispatchWordsOfTheTable :=
  ⟨decodeInvertsEncode .off100, decodeInvertsEncode .off200, decodeInvertsEncode .off300, decodeInvertsEncode .off400,
    decodeInvertsEncode .off500, decodeInvertsEncode .off700, decodeInvertsEncode .off800, decodeInvertsEncode .off900,
    decodeInvertsEncode .on100, decodeInvertsEncode .on200, decodeInvertsEncode .on300, decodeInvertsEncode .on400,
    decodeInvertsEncode .on500, decodeInvertsEncode .on700, decodeInvertsEncode .on800, decodeInvertsEncode .on900⟩

/-! ## Lines of a trace -/

/-- The base of a line's word and its timestamp share no bit, so the sum of R85 is the word of R71. -/
theorem eventWord_eq_add (kind : BitVec 2) (ts : Timestamp) :
    placeAt 34 32 kind + ts.setWidth 34 = eventWord kind ts := by
  have hlow : ts.setWidth 34 = placeAt 34 0 ts := (BitVec.shiftLeft_zero _).symm
  rw [hlow]
  refine BitVec.add_eq_or_of_and_eq_zero _ _ (BitVec.eq_of_getLsbD_eq fun i hi => ?_)
  by_cases h : 32 ≤ i
  · have hout : ts.getLsbD i = false := BitVec.getLsbD_of_ge _ _ h
    simp [getLsbD_placeAt, hout]
  · simp [getLsbD_placeAt, h]

/-- Settles O5: the line of an edge is the word of the edge, and every word decodes to the operation it encodes. -/
theorem traceLinesDecode : Obligations.TraceLinesDecode := by
  have hrise : ∀ t, (Trace.Line.rise t).offer = encode (.edgeR t) := fun t =>
    congrArg Offer.event (eventWord_eq_add 1 t)
  have hfall : ∀ t, (Trace.Line.fall t).offer = encode (.edgeF t) := fun t =>
    congrArg Offer.event (eventWord_eq_add 0 t)
  refine ⟨fun t => ⟨hrise t, ?_, hfall t, ?_⟩, rfl, rfl, rfl, ?wdog, ?stop, rfl⟩
  · rw [hrise]
    exact decodeInvertsEncode _
  · rw [hfall]
    exact decodeInvertsEncode _
  case wdog => exact decodeInvertsEncode .wdog
  case stop => exact decodeInvertsEncode .stop

end Sys2Proof.Proofs
end

section
/-! PROOFS. The layouts of the registers and ports of `30_encoding.md`: the decoded-time register (R79), the output
record (R78) and the frame status (R82). -/

open Sys2Proof Sys2Proof.Machine

namespace Sys2Proof.Proofs

/-! ## The decoded-time register -/

/-- Every field of a packed time is read at its own bits of the register, a flag as a slice of one bit (R79). -/
theorem packTime_slices (t : DecodedTime) :
    (packTime t).extractLsb' 34 16 = t.year ∧ (packTime t).extractLsb' 29 5 = t.month ∧
    (packTime t).extractLsb' 23 6 = t.day ∧ (packTime t).extractLsb' 20 3 = t.weekday ∧
    (packTime t).extractLsb' 14 6 = t.hour ∧ (packTime t).extractLsb' 7 7 = t.minute ∧
    (packTime t).extractLsb' 2 5 = t.dut1 ∧ (packTime t).extractLsb' 1 1 = BitVec.ofBool t.dstPending ∧
    (packTime t).extractLsb' 0 1 = BitVec.ofBool t.dstActive := by
  simp (disch := omega) only [packTime, BitVec.extractLsb'_or, extractLsb'_placeAt_same, extractLsb'_placeAt_below,
    extractLsb'_placeAt_above, BitVec.or_zero, BitVec.zero_or, and_self]

theorem unpackTime_packTime (t : DecodedTime) : unpackTime (packTime t) = t := by
  obtain ⟨hyear, hmonth, hday, hweekday, hhour, hminute, hdut1, hpending, hactive⟩ := packTime_slices t
  exact DecodedTime.ext hyear hmonth hday hweekday hhour hminute hdut1 (getLsbD_eq_of_extractLsb' hpending)
    (getLsbD_eq_of_extractLsb' hactive)

/-- The nine slices of R79 are neighbours and cover the register. -/
theorem packTime_unpackTime (w : TimeWord) : packTime (unpackTime w) = w := by
  simp only [packTime, unpackTime, ofBool_getLsbD]
  rw [placeAt_slices (lo := 29) (len := 5) w rfl, placeAt_slices (lo := 23) (len := 6) w rfl,
    placeAt_slices (lo := 20) (len := 3) w rfl, placeAt_slices (lo := 14) (len := 6) w rfl,
    placeAt_slices (lo := 7) (len := 7) w rfl, placeAt_slices (lo := 2) (len := 5) w rfl,
    placeAt_slices (lo := 1) (len := 1) w rfl, placeAt_slices (lo := 0) (len := 1) w rfl]
  exact placeAt_whole w

/-- Settles O7: packing and unpacking are inverse to each other. -/
theorem timeRegisterLayout : Obligations.TimeRegisterLayout := by
  refine ⟨fun t => ?_, packTime_unpackTime⟩
  have h := unpackTime_packTime t
  exact ⟨congrArg DecodedTime.year h, congrArg DecodedTime.month h, congrArg DecodedTime.day h,
    congrArg DecodedTime.weekday h, congrArg DecodedTime.hour h, congrArg DecodedTime.minute h,
    congrArg DecodedTime.dut1 h, congrArg DecodedTime.dstPending h, congrArg DecodedTime.dstActive h⟩

/-! ## The output record -/

/-- Every field of a record is read at its own bits of the word, a flag as a slice of one bit (R78). -/
theorem outWord_slices (o : OutRecord) :
    o.word.extractLsb' 12 4 = o.cls.code ∧ o.word.extractLsb' 11 1 = BitVec.ofBool o.pol ∧
    o.word.extractLsb' 10 1 = BitVec.ofBool o.tick ∧ o.word.extractLsb' 9 1 = BitVec.ofBool o.unexp ∧
    o.word.extractLsb' 8 1 = BitVec.ofBool o.app ∧ o.word.extractLsb' 7 1 = BitVec.ofBool o.pa ∧
    o.word.extractLsb' 6 1 = BitVec.ofBool o.pb ∧ o.word.extractLsb' 3 3 = o.fr.word ∧
    o.word.extractLsb' 1 2 = o.pg ∧ o.word.extractLsb' 0 1 = BitVec.ofBool o.wd := by
  simp (disch := omega) only [OutRecord.word, BitVec.extractLsb'_or, extractLsb'_placeAt_same,
    extractLsb'_placeAt_below, extractLsb'_placeAt_above, BitVec.or_zero, BitVec.zero_or, and_self]

/-- No two classifier results share a code (R76). -/
theorem clsResult_code_injective : Function.Injective ClsResult.code := by
  rintro (_ | ⟨⟨⟩⟩ | _ | _ | _ | _) (_ | ⟨⟨⟩⟩ | _ | _ | _ | _) <;> decide

/-- No two frame results share a code (R77). -/
theorem frameResult_word_injective : Function.Injective FrameResult.word := by
  rintro ⟨⟩ ⟨⟩ <;> decide

/-- The table of R76. -/
def clsCodeTable : List (ClsResult × BitVec 4) :=
  [(.none, 0x0#4), (.sym .w100, 0x1#4), (.sym .w200, 0x2#4), (.sym .w300, 0x3#4), (.sym .w400, 0x4#4),
    (.sym .w500, 0x5#4), (.sym .w700, 0x7#4), (.sym .w800, 0x8#4), (.sym .w900, 0x9#4), (.ignored, 0xA#4),
    (.incomplete, 0xB#4), (.stopped, 0xD#4), (.unclassified, 0xF#4)]

theorem clsResult_code_of_mem : ∀ p ∈ clsCodeTable, p.1.code = p.2 := by decide

/-- The table of R77. -/
def frCodeTable : List (FrameResult × BitVec 3) :=
  [(.noFrame, 0#3), (.ok, 1#3), (.discarded, 2#3), (.length, 3#3), (.marker, 4#3), (.parity, 5#3)]

theorem frameResult_word_of_mem : ∀ p ∈ frCodeTable, p.1.word = p.2 := by decide

/-- Settles O8: the slices of the word, and no two results share a code. -/
theorem outputRecordLayout : Obligations.OutputRecordLayout := by
  refine ⟨fun o c v h => ?cls, fun o r v h => ?fr, fun o => ?fields⟩
  all_goals
    obtain ⟨hcls, hpol, htick, hunexp, happ, hpa, hpb, hfr, hpg, hwd⟩ := outWord_slices o
  case cls =>
    have hcode : c.code = v := clsResult_code_of_mem (c, v) h
    rw [hcls, ← hcode]
    exact clsResult_code_injective.eq_iff.symm
  case fr =>
    have hcode : r.word = v := frameResult_word_of_mem (r, v) h
    rw [hfr, ← hcode]
    exact frameResult_word_injective.eq_iff.symm
  case fields =>
    exact ⟨hcls, getLsbD_eq_of_extractLsb' hpol, getLsbD_eq_of_extractLsb' htick, getLsbD_eq_of_extractLsb' hunexp,
      getLsbD_eq_of_extractLsb' happ, getLsbD_eq_of_extractLsb' hpa, getLsbD_eq_of_extractLsb' hpb, hfr, hpg,
      getLsbD_eq_of_extractLsb' hwd⟩

/-! ## The ports -/

/-- The port `FST` is the code of the frame result above the parity group (R82). -/
theorem fstWord_slices (f : FrameStatus) :
    f.word.extractLsb' 2 3 = f.code.word ∧ f.word.extractLsb' 0 2 = f.pg := by
  simp (disch := omega) only [FrameStatus.word, BitVec.extractLsb'_or, extractLsb'_placeAt_same,
    extractLsb'_placeAt_below, extractLsb'_placeAt_above, BitVec.or_zero, BitVec.zero_or, and_self]

/-- Settles O59: the ports are wired to the record and the registers, and `FST` to the slices of its word. -/
theorem portsShowTheLastRecord : Obligations.PortsShowTheLastRecord := by
  intro s
  obtain ⟨hcode, hpg⟩ := fstWord_slices s.fst
  refine ⟨rfl, rfl, rfl, rfl, rfl, rfl, rfl, hpg, fun r v h => ?_⟩
  have hr : r.word = v := frameResult_word_of_mem (r, v) h
  have hport : s.ports.fst.extractLsb' 2 3 = s.fst.code.word := hcode
  rw [hport, ← hr]
  exact frameResult_word_injective.eq_iff.symm

/-! ## The seconds of a trace -/

/-- A carrier-off pulse ends with a rising edge where `POL = 1` (R86). -/
theorem expandPulses_off {c us t c' : Nat} {rest : List (Polarity × Nat)} {lines : List Trace.Line} (ht : c + us = t)
    (hlt : t < 2 ^ 32) (hrest : Trace.expandPulses true t rest = some (lines, c')) :
    Trace.expandPulses true c ((.carrierOff, us) :: rest) = some (.rise (BitVec.ofNat 32 t) :: lines, c') := by
  simp only [Trace.expandPulses, Trace.endingEdge, if_true, ht, Trace.edgeLine, if_pos hlt, hrest]

/-- A carrier-on pulse ends with a falling edge where `POL = 1` (R86). -/
theorem expandPulses_on {c us t c' : Nat} {rest : List (Polarity × Nat)} {lines : List Trace.Line} (ht : c + us = t)
    (hlt : t < 2 ^ 32) (hrest : Trace.expandPulses true t rest = some (lines, c')) :
    Trace.expandPulses true c ((.carrierOn, us) :: rest) = some (.fall (BitVec.ofNat 32 t) :: lines, c') := by
  simp only [Trace.expandPulses, Trace.endingEdge, if_true, ht, Trace.edgeLine, if_pos hlt, hrest]

theorem expandPulses_nil (c : Nat) : Trace.expandPulses true c [] = some ([], c) := rfl

/-- Settles O6: each second is a chain of pulses, and fits where its last edge does. -/
theorem secondsExpandToEdges : Obligations.SecondsExpandToEdges := by
  intro c hc
  simp only [Trace.Pseudo.expand, Trace.Pseudo.pulses]
  refine ⟨?sec00, ?sec10, ?sec11, ?sec01, ?secM⟩
  case sec01 =>
    exact expandPulses_off (by omega) (by omega) <| expandPulses_on (by omega) (by omega) <|
      expandPulses_off (by omega) (by omega) <| expandPulses_on (by omega) (by omega) (expandPulses_nil _)
  all_goals exact expandPulses_off (by omega) (by omega) (expandPulses_on (by omega) (by omega) (expandPulses_nil _))

end Sys2Proof.Proofs
end

section
/-! PROOFS. A step of the block (`20_memory.md` section 4): one equation for each thing `step` can do with the inputs
lined up, and that the record of the step before plays no part in it (R36). -/

open Sys2Proof Sys2Proof.Machine

namespace Sys2Proof.Proofs

/-! ## One equation per case of a step -/

theorem step_idles {s : State} (hin : s.inbox = []) : step s = .next s.idle := by
  simp only [step, hin]

theorem step_rejects {s : State} {x : Input} {rest : List Input} {e : DecodeReject} (hin : s.inbox = x :: rest)
    (hdec : decode x.offer = .error e) : step s = .refused (.notAnOperation e) := by
  simp only [step, hin, hdec]

theorem step_clashes {s : State} {x : Input} {rest : List Input} {i : Instr} (hin : s.inbox = x :: rest)
    (hdec : decode x.offer = .ok i) (hpol : s.polarityClash x = true) : step s = .refused .polarityChanged := by
  simp only [step, hin, hdec, hpol, if_true]

theorem step_executes {s : State} {x : Input} {rest : List Input} {i : Instr} (hin : s.inbox = x :: rest)
    (hdec : decode x.offer = .ok i) (hpol : s.polarityClash x = false) : step s = exec i (s.takeInput x rest) := by
  simp only [step, hin, hdec, hpol, Bool.false_eq_true, if_false]

/-- The condition of R33 under which a change of `POL` is refused (U6). -/
theorem polarityClash_iff (s : State) (x : Input) :
    s.polarityClash x = true ↔ (s.run = true ∧
      (s.tsRise ≠ 0 ∨ s.tsFall ≠ 0 ∨ s.wOn ≠ none ∨ s.wOff ≠ none ∨ s.n ≠ 0)) ∧ x.pol ≠ s.pol ∧ x.offer ≠ .rst := by
  simp [State.polarityClash, State.polarityHeld, and_assoc, or_assoc]

/-! ## The statements -/

/-- Settles O9: the four alternatives are those in which there is no clash of polarities. -/
theorem stepRunsDecodedInput : Obligations.StepRunsDecodedInput := by
  intro s x rest i hin hdec hpol
  refine step_executes hin hdec (Bool.eq_false_iff.2 fun hclash => ?_)
  obtain ⟨⟨hrun, hheld⟩, hne, hrst⟩ := (polarityClash_iff s x).1 hclash
  rcases hpol with hpol | hpol | hpol | ⟨hrise, hfall, hon, hoff, hn⟩
  · exact hne hpol
  · exact hrst hpol
  · simp [hrun] at hpol
  · simp [hrise, hfall, hon, hoff, hn] at hheld

/-- Settles O10. -/
theorem stepIdlesWithoutInput : Obligations.StepIdlesWithoutInput :=
  fun _ hin => step_idles hin

/-- Settles O11: a reserved dispatch word is rejected by the decoder, and a forbidden change of `POL` is a clash. -/
theorem stepRefusesWhatIsReserved : Obligations.StepRefusesWhatIsReserved := by
  intro s x rest hin
  refine ⟨fun w hw hwf => ?_, fun ⟨i, hdec⟩ hrst hrun hpol hheld => ?_⟩
  · exact step_rejects hin (hw ▸ decode_pulse_error (decodePulse_of_not_wf hwf))
  · exact step_clashes hin hdec ((polarityClash_iff s x).2 ⟨⟨hrun, hheld⟩, hpol, hrst⟩)

/-- Settles O12: an event begins its step with an empty record, and a pulse with that of its dispatch word. -/
theorem recordIsAFunctionOfTheStep : Obligations.RecordIsAFunctionOfTheStep := by
  intro i s o v
  rcases instr_cases i with ⟨d, x, rfl⟩ | rfl | rfl | rfl | ⟨p, rfl⟩
  case inl =>
    rw [exec_edge, exec_edge]
    rfl
  case inr.inr.inr.inr =>
    rw [← exec_pulse_beginStep p s]
    exact (exec_pulse_beginStep p { s with out := o, outValid := v }).symm
  all_goals rfl

end Sys2Proof.Proofs
end

section
/-! PROOFS. States that step alike. A relation between two states that every state operation of a pulse keeps, and that
fixes what a pulse reads, is kept by all sixteen pulse operations (`exec_pulse_related`); if it also fixes what the
classifier compares, it is kept by an edge (`exec_edge_related`). The noninterference statements (R27, R112) and the
mirror of the two directions (R111) are each one such relation. -/

open Sys2Proof Sys2Proof.Machine

namespace Sys2Proof.Proofs

/-! ## Outcomes -/

/-- The three ways two outcomes can agree. -/
theorem sameOutcome_cases {R : State → State → Prop} {r r' : Result} (h : SameOutcome R r r') :
    (∃ s t, r = .next s ∧ r' = .next t ∧ R s t) ∨ (∃ x, r = .fault x ∧ r' = .fault x) ∨
      (∃ x, r = .refused x ∧ r' = .refused x) := by
  cases r <;> cases r'
  case next.next s t => exact .inl ⟨s, t, rfl, rfl, h⟩
  case fault.fault x _ => exact .inr (.inl ⟨x, rfl, congrArg _ (Eq.symm h)⟩)
  case refused.refused x _ => exact .inr (.inr ⟨x, rfl, congrArg _ (Eq.symm h)⟩)
  all_goals exact absurd h id

theorem sameOutcome_andThen {R : State → State → Prop} {f : State → State} (hf : ∀ s t, R s t → R (f s) (f t))
    {r r' : Result} (h : SameOutcome R r r') : SameOutcome R (andThen r f) (andThen r' f) := by
  rcases sameOutcome_cases h with ⟨s, t, rfl, rfl, hst⟩ | ⟨x, rfl, rfl⟩ | ⟨x, rfl, rfl⟩
  · exact hf s t hst
  · rfl
  · rfl

theorem sameOutcome_mono {R Q : State → State → Prop} (hRQ : ∀ s t, R s t → Q s t) {r r' : Result}
    (h : SameOutcome R r r') : SameOutcome Q r r' := by
  rcases sameOutcome_cases h with ⟨s, t, rfl, rfl, hst⟩ | ⟨x, rfl, rfl⟩ | ⟨x, rfl, rfl⟩
  · exact hRQ s t hst
  · rfl
  · rfl

/-! ## Pulses -/

/-- What a relation needs for the pulse operations to keep it: the two states show a pulse the same registers and the
same completed frame, and every state operation a pulse uses keeps the relation. -/
structure PulseRelation (R : State → State → Prop) : Prop where
  wOn : ∀ {s t}, R s t → t.wOn = s.wOn
  wOff : ∀ {s t}, R s t → t.wOff = s.wOff
  century : ∀ {s t}, R s t → t.century = s.century
  handsOver : ∀ {s t}, R s t → t.handsOver = s.handsOver
  channel : ∀ {s t}, R s t → ∀ ch, t.channel ch = s.channel ch
  beginPulse : ∀ {s t}, R s t → ∀ p, R (s.beginPulse p) (t.beginPulse p)
  append : ∀ {s t}, R s t → ∀ a b, R (s.append a b) (t.append a b)
  raiseTick : ∀ {s t}, R s t → R s.raiseTick t.raiseTick
  unexpected : ∀ {s t}, R s t → R (s.report .unexpectedPulse) (t.report .unexpectedPulse)
  recordFrame : ∀ {s t}, R s t → ∀ c g, R (s.recordFrame c g) (t.recordFrame c g)
  deliverTime : ∀ {s t}, R s t → ∀ v, R (s.deliverTime v) (t.deliverTime v)
  emptyFrame : ∀ {s t}, R s t → R s.emptyFrame t.emptyFrame
  setWOff : ∀ {s t}, R s t → ∀ w, R (s.setWOff w) (t.setWOff w)
  setWOn : ∀ {s t}, R s t → ∀ w, R (s.setWOn w) (t.setWOn w)

section
variable {R : State → State → Prop} (hR : PulseRelation R)
include hR

/-- The unexpected-pulse test reads `w_off` alone (R138). -/
theorem crossCheck_related {s t : State} (h : R s t) (w : Width) : R (s.crossCheck w) (t.crossCheck w) := by
  unfold State.crossCheck
  rw [hR.wOff h]
  split
  · exact hR.unexpected h
  · exact hR.raiseTick h

/-- A failure of the validator records a frame result and nothing else (R161). -/
theorem report_failure_related {s t : State} (h : R s t) {a b : List Bool} {f : Failure}
    (hf : validate a b = .failed f) : R (s.report f) (t.report f) := by
  rcases validate_failed hf with rfl | rfl | ⟨g, rfl⟩
  · exact hR.recordFrame h .length 0
  · exact hR.recordFrame h .marker 0
  · exact hR.recordFrame h .parity g

/-- A minute close reads `bad`, `n`, the completed frame and `CENTURY` (R132). -/
theorem closeMinute_related {s t : State} (h : R s t) : SameOutcome R s.closeMinute t.closeMinute := by
  refine sameOutcome_andThen (fun _ _ => hR.emptyFrame) ?_
  unfold State.validateFrame
  rw [hR.handsOver h, hR.channel h, hR.channel h, hR.century h]
  split
  · split
    case h_1 f hf => exact report_failure_related hR h hf
    case h_2 =>
      split
      · rfl
      · exact hR.deliverTime h _
  · exact hR.recordFrame h .discarded 0

/-- Every pulse operation keeps the relation. -/
theorem exec_pulse_related {s t : State} (h : R s t) (p : Pulse) : SameOutcome R (exec p.instr s) (exec p.instr t) := by
  have hbegin := hR.beginPulse h
  rcases p with ⟨_ | _, w⟩
  case carrierOff =>
    by_cases hw : w = .w500
    · subst hw
      exact sameOutcome_andThen (fun _ _ hu => hR.setWOff hu .w500) (closeMinute_related hR (hbegin _))
    · have hpair : offPair t w = offPair s w := by
        unfold offPair
        rw [hR.wOn h, hR.wOff h]
      rw [exec_off hw, exec_off hw, hpair]
      refine hR.setWOff ?_ w
      split
      · exact hR.append (hbegin _) _ _
      · exact hbegin _
  case carrierOn =>
    rw [exec_on, exec_on, hR.wOff h]
    refine hR.setWOn (crossCheck_related hR ?_ w) w
    split
    · exact hR.append (hbegin _) false false
    · exact hbegin _

end

/-! ## Edges -/

/-- What an edge of direction `d` at `x` in one state and an edge of direction `e` at `y` in the other need beyond
`PulseRelation`: every test of the classifier comes out alike (R101 to R109), and every state operation of an edge step
keeps the relation. -/
structure EdgeRelation (R : State → State → Prop) (d e : Direction) (x y : Timestamp) : Prop where
  run : ∀ {s t}, R s t → t.run = s.run
  skip : ∀ {s t}, R s t → t.skip = s.skip
  unset : ∀ {s t}, R s t → (t.ts e.opp = 0 ↔ s.ts d.opp = 0)
  wrap : ∀ {s t}, R s t → ((y < t.tsRise ∨ y < t.tsFall) ↔ (x < s.tsRise ∨ x < s.tsFall))
  interval : ∀ {s t}, R s t → s.ts d.opp ≠ 0 → ¬ (x < s.tsRise ∨ x < s.tsFall) →
    (y - t.ts e.opp).toNat = (x - s.ts d.opp).toNat
  polarity : ∀ {s t}, R s t → pulsePolarity t.pol e = pulsePolarity s.pol d
  beginStep : ∀ {s t}, R s t → R s.beginStep t.beginStep
  setCls : ∀ {s t}, R s t → ∀ c, R (s.setCls c) (t.setCls c)
  setSkip : ∀ {s t}, R s t → ∀ v, R (s.setSkip v) (t.setSkip v)
  clearTs : ∀ {s t}, R s t → R s.clearTs t.clearTs
  setTs : ∀ {s t}, R s t → R (s.setTs d x) (t.setTs e y)
  unclassified : ∀ {s t}, R s t → R (s.report .unclassifiedPulse) (t.report .unclassifiedPulse)

/-- The classifier leaves the same kind of result on related states. -/
inductive SameClassified (R : State → State → Prop) : Classified → Classified → Prop
  | ended {s t : State} : R s t → SameClassified R (.ended s) (.ended t)
  | symbol {s t : State} (p : Pulse) : R s t → SameClassified R (.symbol p s) (.symbol p t)

section
variable {R : State → State → Prop} {d e : Direction} {x y : Timestamp} (hE : EdgeRelation R d e x y)
include hE

theorem measureInterval_related {s t : State} (h : R s t)
    (hdelta : (y - t.ts e.opp).toNat = (x - s.ts d.opp).toNat) :
    SameClassified R (measureInterval d x s) (measureInterval e y t) := by
  unfold measureInterval
  rw [hdelta, hE.polarity h]
  dsimp only
  split
  · exact .ended (hE.setCls (hE.setSkip (hE.setTs h) true) .none)
  · split
    · exact .symbol _ (hE.setTs h)
    · exact .ended (hE.unclassified (hE.setTs h))

theorem classifier_related {s t : State} (h : R s t) : SameClassified R (classifier d x s) (classifier e y t) := by
  unfold classifier
  simp only [hE.skip h, hE.unset h, hE.wrap h]
  split
  · exact .ended (hE.setCls (hE.setSkip h false) .ignored)
  · split
    · exact .ended (hE.setCls (hE.setTs h) .incomplete)
    · split
      · exact .ended (hE.setCls (hE.clearTs h) .incomplete)
      · exact measureInterval_related hE h (hE.interval h ‹_› ‹_›)

/-- Edges whose classifications agree keep the relation. -/
theorem exec_edge_related (hR : PulseRelation R) {s t : State} (h : R s t) :
    SameOutcome R (exec (edge d x) s) (exec (edge e y) t) := by
  rw [exec_edge, exec_edge]
  have hbegin := hE.beginStep h
  cases hr : s.run with
  | false =>
    rw [edgeStep_stopped hr, edgeStep_stopped ((hE.run h).trans hr)]
    exact hE.setCls hbegin .stopped
  | true =>
    have hclass := classifier_related hE hbegin
    unfold edgeStep
    rw [if_pos hr, if_pos ((hE.run h).trans hr)]
    generalize classifier d x s.beginStep = c, classifier e y t.beginStep = c' at hclass
    cases hclass with
    | ended hu => exact hu
    | symbol p hu =>
      simp only [dispatchPulse_eq_exec]
      exact exec_pulse_related hR hu p

end

/-! ## Control events -/

/-- What the control events need beyond the two relations above: they read `run` alone, and what they leave is related
(R190 to R193). -/
structure ControlRelation (R : State → State → Prop) : Prop where
  run : ∀ {s t}, R s t → t.run = s.run
  stopped : ∀ {s t}, R s t → R s.stoppedStep t.stoppedStep
  wdog : ∀ {s t}, R s t →
    R { s.beginStep.clearDecoder with out := { wd := true } } { t.beginStep.clearDecoder with out := { wd := true } }
  stop : ∀ {s t}, R s t → R { s.beginStep with run := false } { t.beginStep with run := false }
  reset : ∀ {s t}, R s t →
    R { s.beginStep.clearDecoder with run := true, fst := { code := .noFrame, pg := 0 }, dt := 0, dtOk := false }
      { t.beginStep.clearDecoder with run := true, fst := { code := .noFrame, pg := 0 }, dt := 0, dtOk := false }

/-- Every operation but an edge keeps the relation. -/
theorem exec_nonEdge_related {R : State → State → Prop} (hR : PulseRelation R) (hC : ControlRelation R) {s t : State}
    (h : R s t) {i : Instr} (hi : ∀ d x, i ≠ edge d x) : SameOutcome R (exec i s) (exec i t) := by
  have hrun := hC.run h
  rcases instr_cases i with ⟨d, x, rfl⟩ | rfl | rfl | rfl | ⟨p, rfl⟩
  case inl => exact absurd rfl (hi d x)
  case inr.inl =>
    cases hr : s.run with
    | true =>
      rw [exec_wdog_running hr, exec_wdog_running (hrun.trans hr)]
      exact hC.wdog h
    | false =>
      rw [exec_event_stopped hr (.inr (.inl rfl)), exec_event_stopped (hrun.trans hr) (.inr (.inl rfl))]
      exact hC.stopped h
  case inr.inr.inl =>
    cases hr : s.run with
    | true =>
      rw [exec_stop_running hr, exec_stop_running (hrun.trans hr)]
      exact hC.stop h
    | false =>
      rw [exec_event_stopped hr (.inr (.inr rfl)), exec_event_stopped (hrun.trans hr) (.inr (.inr rfl))]
      exact hC.stopped h
  case inr.inr.inr.inl => exact hC.reset h
  case inr.inr.inr.inr => exact exec_pulse_related hR h p

end Sys2Proof.Proofs
end

section
/-! PROOFS. Cells at and above `n` are read by no step (R27, R56): the completed frame is the cells below `n`, and
`APPEND` writes the one at `n` in both states before it counts it in. -/

open Sys2Proof Sys2Proof.Machine

namespace Sys2Proof.Proofs

/-! ## Buffers that differ above `n` -/

/-- Two canonical buffers with the same cells below `n`. -/
structure CellsAgree (n : BitVec 6) (m m' : Memory) : Prop where
  wf : m.wf = true
  wf' : m'.wf = true
  agree : ∀ i, i < n.toNat → i < 60 → m'.bit i = m.bit i

/-- Nothing is below 0. -/
theorem cellsAgree_zero {n : BitVec 6} {m m' : Memory} (h : CellsAgree n m m') : CellsAgree 0 m m' :=
  ⟨h.wf, h.wf', fun i hi => absurd hi (Nat.not_lt_zero i)⟩

/-- `APPEND` makes the cell at `n` agree as well, while there is one (R65, R131). -/
theorem cellsAgree_append {n : BitVec 6} {m m' : Memory} (h : CellsAgree n m m') (v : Bool) :
    CellsAgree (satIncN n) (if n.toNat < Params.bufCap then m.set n.toNat v else m)
      (if n.toNat < Params.bufCap then m'.set n.toNat v else m') := by
  have hn := satIncN_toNat n
  by_cases hroom : n.toNat < Params.bufCap
  · rw [if_pos hroom, if_pos hroom]
    refine ⟨Memory.set_wf v hroom h.wf, Memory.set_wf v hroom h.wf', fun i hi h60 => ?_⟩
    by_cases hin : i = n.toNat
    · subst hin
      rw [Memory.bit_set_same v h.wf, Memory.bit_set_same v h.wf']
    · rw [Memory.bit_set_other v hin, Memory.bit_set_other v hin]
      exact h.agree i (by omega) h60
  · rw [if_neg hroom, if_neg hroom]
    simp only [Params.bufCap] at hroom
    exact ⟨h.wf, h.wf', fun i _ h60 => h.agree i (by omega) h60⟩

/-- Canonical states that differ at most in cells at and above `n`. -/
inductive DiffersAboveN (s : State) : State → Prop
  | mk (A B : Memory) : CellsAgree s.n s.bufA A → CellsAgree s.n s.bufB B →
      DiffersAboveN s { s with bufA := A, bufB := B }

/-- The relation of the obligation, on canonical states. -/
theorem differsAboveN_of_agreeBelowN {s t : State} (hsA : s.bufA.wf = true) (hsB : s.bufB.wf = true)
    (htA : t.bufA.wf = true) (htB : t.bufB.wf = true) (h : AgreeBelowN s t) : DiffersAboveN s t := by
  obtain ⟨ht, hcells⟩ := h
  have hbit : ∀ ch i, i < s.n.toNat → i < 60 → (t.buf ch).bit i = (s.buf ch).bit i := fun ch i hi h60 => by
    have hcell := hcells ch i hi
    rw [State.readCell_of_lt s ch h60, State.readCell_of_lt t ch h60] at hcell
    exact (Except.ok.inj hcell).symm
  rw [ht]
  exact .mk _ _ ⟨hsA, htA, hbit .A⟩ ⟨hsB, htB, hbit .B⟩

theorem agreeBelowN_of_differsAboveN {s t : State} (h : DiffersAboveN s t) : AgreeBelowN s t := by
  obtain ⟨A, B, hA, hB⟩ := h
  refine ⟨rfl, fun ch i hi => ?_⟩
  by_cases h60 : i < 60
  · rw [State.readCell_of_lt _ ch h60, State.readCell_of_lt _ ch h60]
    cases ch
    · exact congrArg Except.ok (hA.agree i hi h60).symm
    · exact congrArg Except.ok (hB.agree i hi h60).symm
  · rw [State.readCell_outside _ ch (Nat.le_of_not_lt h60), State.readCell_outside _ ch (Nat.le_of_not_lt h60)]

/-! ## Every operation keeps the difference above `n` -/

theorem differsAboveN_channel {s t : State} (h : DiffersAboveN s t) (ch : Channel) : t.channel ch = s.channel ch := by
  obtain ⟨A, B, hA, hB⟩ := h
  refine State.channel_congr ch rfl fun i hi => ?_
  cases ch
  · exact hA.agree i (by omega) (by omega)
  · exact hB.agree i (by omega) (by omega)

theorem differsAboveN_pulseRelation : PulseRelation DiffersAboveN where
  wOn := fun ⟨_, _, _, _⟩ => rfl
  wOff := fun ⟨_, _, _, _⟩ => rfl
  century := fun ⟨_, _, _, _⟩ => rfl
  handsOver := fun ⟨_, _, _, _⟩ => rfl
  channel := differsAboveN_channel
  beginPulse := fun ⟨A, B, hA, hB⟩ _ => .mk A B hA hB
  append := fun ⟨_, _, hA, hB⟩ a b => .mk _ _ (cellsAgree_append hA a) (cellsAgree_append hB b)
  raiseTick := fun ⟨A, B, hA, hB⟩ => .mk A B hA hB
  unexpected := fun ⟨A, B, hA, hB⟩ => .mk A B hA hB
  recordFrame := fun ⟨A, B, hA, hB⟩ _ _ => .mk A B hA hB
  deliverTime := fun ⟨A, B, hA, hB⟩ _ => .mk A B hA hB
  emptyFrame := fun ⟨A, B, hA, hB⟩ => .mk A B (cellsAgree_zero hA) (cellsAgree_zero hB)
  setWOff := fun ⟨A, B, hA, hB⟩ _ => .mk A B hA hB
  setWOn := fun ⟨A, B, hA, hB⟩ _ => .mk A B hA hB

theorem differsAboveN_ts {s t : State} (h : DiffersAboveN s t) (d : Direction) : t.ts d = s.ts d := by
  obtain ⟨A, B, hA, hB⟩ := h
  cases d <;> rfl

theorem differsAboveN_setTs {s t : State} (h : DiffersAboveN s t) (d : Direction) (x : Timestamp) :
    DiffersAboveN (s.setTs d x) (t.setTs d x) := by
  obtain ⟨A, B, hA, hB⟩ := h
  cases d <;> exact .mk A B hA hB

theorem differsAboveN_edgeRelation (d : Direction) (x : Timestamp) : EdgeRelation DiffersAboveN d d x x where
  run := fun ⟨_, _, _, _⟩ => rfl
  skip := fun ⟨_, _, _, _⟩ => rfl
  unset := fun h => by rw [differsAboveN_ts h]
  wrap := fun ⟨_, _, _, _⟩ => Iff.rfl
  interval := fun h _ _ => by rw [differsAboveN_ts h]
  polarity := fun ⟨_, _, _, _⟩ => rfl
  beginStep := fun ⟨A, B, hA, hB⟩ => .mk A B hA hB
  setCls := fun ⟨A, B, hA, hB⟩ _ => .mk A B hA hB
  setSkip := fun ⟨A, B, hA, hB⟩ _ => .mk A B hA hB
  clearTs := fun ⟨A, B, hA, hB⟩ => .mk A B hA hB
  setTs := fun h => differsAboveN_setTs h d x
  unclassified := fun ⟨A, B, hA, hB⟩ => .mk A B hA hB

theorem differsAboveN_controlRelation : ControlRelation DiffersAboveN where
  run := fun ⟨_, _, _, _⟩ => rfl
  stopped := fun ⟨A, B, hA, hB⟩ => .mk A B hA hB
  wdog := fun ⟨A, B, hA, hB⟩ => .mk A B (cellsAgree_zero hA) (cellsAgree_zero hB)
  stop := fun ⟨A, B, hA, hB⟩ => .mk A B hA hB
  reset := fun ⟨A, B, hA, hB⟩ => .mk A B (cellsAgree_zero hA) (cellsAgree_zero hB)

theorem exec_differsAboveN {s t : State} (h : DiffersAboveN s t) (i : Instr) :
    SameOutcome DiffersAboveN (exec i s) (exec i t) := by
  by_cases hi : ∃ d x, i = edge d x
  · obtain ⟨d, x, rfl⟩ := hi
    exact exec_edge_related (differsAboveN_edgeRelation d x) differsAboveN_pulseRelation h
  · simp only [not_exists] at hi
    exact exec_nonEdge_related differsAboveN_pulseRelation differsAboveN_controlRelation h hi

theorem differsAboveN_takeInput {s t : State} (h : DiffersAboveN s t) (x : Input) (rest : List Input) :
    DiffersAboveN (s.takeInput x rest) (t.takeInput x rest) := by
  obtain ⟨A, B, hA, hB⟩ := h
  exact .mk A B hA hB

/-- So does a step: which operation it runs, and whether it is refused, is read from no cell. -/
theorem step_differsAboveN {s t : State} (h : DiffersAboveN s t) : SameOutcome DiffersAboveN (step s) (step t) := by
  have hinbox : t.inbox = s.inbox := by cases h; rfl
  have hclash : ∀ x, t.polarityClash x = s.polarityClash x := by cases h; exact fun _ => rfl
  rcases hin : s.inbox with _ | ⟨x, rest⟩
  · rw [step_idles hin, step_idles (hinbox.trans hin)]
    obtain ⟨A, B, hA, hB⟩ := h
    exact .mk A B hA hB
  · rw [hin] at hinbox
    cases hdec : decode x.offer with
    | error e =>
      rw [step_rejects hin hdec, step_rejects hinbox hdec]
      rfl
    | ok i =>
      cases hpol : s.polarityClash x with
      | true =>
        rw [step_clashes hin hdec hpol, step_clashes hinbox hdec ((hclash x).trans hpol)]
        rfl
      | false =>
        rw [step_executes hin hdec hpol, step_executes hinbox hdec ((hclash x).trans hpol)]
        exact exec_differsAboveN (differsAboveN_takeInput h x rest) i

/-! ## The statement -/

/-- Settles O58: on canonical states the relation is the one every step keeps. -/
theorem cellsAboveNAreNeverRead : Obligations.CellsAboveNAreNeverRead := by
  intro s t hsA hsB htA htB h
  exact sameOutcome_mono (fun _ _ => agreeBelowN_of_differsAboveN)
    (step_differsAboveN (differsAboveN_of_agreeBelowN hsA hsB htA htB h))

end Sys2Proof.Proofs
end

section
/-! PROOFS. Translation invariance and the mirror of `40_classifier.md` (R111, R112): the classifier compares timestamps
and takes their differences, so it cannot see an offset common to the stored ones and the edge's own; and it treats the
two directions alike. -/

open Sys2Proof Sys2Proof.Machine

namespace Sys2Proof.Proofs

/-! ## Timestamps apart by one offset -/

theorem shiftedTs_unset {k : Nat} {a b : Timestamp} (h : ShiftedTs k a b) : b = 0 ↔ a = 0 := by
  rcases h with ⟨ha, hb⟩ | ⟨ha, hb, -⟩
  · simp [ha, hb]
  · exact iff_of_false hb ha

/-- An edge comes before a stored timestamp in both states or in neither (R103). -/
theorem shiftedTs_lt {k : Nat} {a b x y : Timestamp} (h : ShiftedTs k a b) (hxy : y.toNat = x.toNat + k) :
    y < b ↔ x < a := by
  rcases h with ⟨rfl, rfl⟩ | ⟨-, -, hab⟩
  · simp
  · rw [BitVec.lt_def, BitVec.lt_def]
    omega

/-- The interval to a stored timestamp is the same in both states (R104). -/
theorem shiftedTs_interval {k : Nat} {a b x y : Timestamp} (h : ShiftedTs k a b) (ha : a ≠ 0)
    (hxy : y.toNat = x.toNat + k) (hle : a ≤ x) : (y - b).toNat = (x - a).toNat := by
  rcases h with ⟨h0, -⟩ | ⟨-, -, hab⟩
  · exact absurd h0 ha
  · rw [BitVec.le_def] at hle
    have hle' : b ≤ y := by
      rw [BitVec.le_def]
      omega
    rw [BitVec.toNat_sub_of_le hle, BitVec.toNat_sub_of_le hle']
    omega

/-- An edge that is not at 0 and the one later by the offset leave shifted timestamps (R105). -/
theorem shiftedTs_of_ne_zero {k : Nat} {x y : Timestamp} (hx : x ≠ 0) (hxy : y.toNat = x.toNat + k) :
    ShiftedTs k x y := by
  refine .inr ⟨hx, fun hy => hx (BitVec.eq_of_toNat_eq ?_), hxy⟩
  have hy0 : y.toNat = 0 := congrArg BitVec.toNat hy
  have hx0 : x.toNat = 0 := by omega
  exact hx0

/-- The relation of the obligations, with the second state named by its two timestamps. -/
inductive ShiftedTo (k : Nat) (s : State) : State → Prop
  | mk (r f : Timestamp) : ShiftedTs k s.tsRise r → ShiftedTs k s.tsFall f →
      ShiftedTo k s { s with tsRise := r, tsFall := f }

theorem shiftedBy_iff_shiftedTo {k : Nat} {s t : State} : ShiftedBy k s t ↔ ShiftedTo k s t := by
  constructor
  · rintro ⟨ht, hr, hf⟩
    rw [ht]
    exact .mk _ _ hr hf
  · rintro ⟨r, f, hr, hf⟩
    exact ⟨rfl, hr, hf⟩

theorem shiftedTo_ts {k : Nat} {s t : State} (h : ShiftedTo k s t) (d : Direction) : ShiftedTs k (s.ts d) (t.ts d) := by
  obtain ⟨r, f, hr, hf⟩ := h
  cases d
  · exact hr
  · exact hf

theorem shiftedTo_setTs {k : Nat} {s t : State} (h : ShiftedTo k s t) (d : Direction) {x y : Timestamp}
    (hxy : ShiftedTs k x y) : ShiftedTo k (s.setTs d x) (t.setTs d y) := by
  obtain ⟨r, f, hr, hf⟩ := h
  cases d
  · exact .mk y f hxy hf
  · exact .mk r y hr hxy

theorem shiftedTo_pulseRelation (k : Nat) : PulseRelation (ShiftedTo k) where
  wOn := fun ⟨_, _, _, _⟩ => rfl
  wOff := fun ⟨_, _, _, _⟩ => rfl
  century := fun ⟨_, _, _, _⟩ => rfl
  handsOver := fun ⟨_, _, _, _⟩ => rfl
  channel := fun ⟨_, _, _, _⟩ ch => by cases ch <;> rfl
  beginPulse := fun ⟨r, f, hr, hf⟩ _ => .mk r f hr hf
  append := fun ⟨r, f, hr, hf⟩ _ _ => .mk r f hr hf
  raiseTick := fun ⟨r, f, hr, hf⟩ => .mk r f hr hf
  unexpected := fun ⟨r, f, hr, hf⟩ => .mk r f hr hf
  recordFrame := fun ⟨r, f, hr, hf⟩ _ _ => .mk r f hr hf
  deliverTime := fun ⟨r, f, hr, hf⟩ _ => .mk r f hr hf
  emptyFrame := fun ⟨r, f, hr, hf⟩ => .mk r f hr hf
  setWOff := fun ⟨r, f, hr, hf⟩ _ => .mk r f hr hf
  setWOn := fun ⟨r, f, hr, hf⟩ _ => .mk r f hr hf

/-- Neither stored timestamp is above an edge that is no wrap. -/
theorem ts_le_of_no_wrap {s : State} {x : Timestamp} (h : ¬ (x < s.tsRise ∨ x < s.tsFall)) (d : Direction) :
    s.ts d ≤ x := by
  simp only [not_or, BitVec.not_lt] at h
  cases d
  · exact h.1
  · exact h.2

theorem shiftedTo_edgeRelation {k : Nat} (d : Direction) {x y : Timestamp} (hx : x ≠ 0) (hxy : y.toNat = x.toNat + k) :
    EdgeRelation (ShiftedTo k) d d x y where
  run := fun ⟨_, _, _, _⟩ => rfl
  skip := fun ⟨_, _, _, _⟩ => rfl
  unset := fun h => shiftedTs_unset (shiftedTo_ts h d.opp)
  wrap := fun h => or_congr (shiftedTs_lt (shiftedTo_ts h .rising) hxy) (shiftedTs_lt (shiftedTo_ts h .falling) hxy)
  interval := fun h h0 hw => shiftedTs_interval (shiftedTo_ts h d.opp) h0 hxy (ts_le_of_no_wrap hw d.opp)
  polarity := fun ⟨_, _, _, _⟩ => rfl
  beginStep := fun ⟨r, f, hr, hf⟩ => .mk r f hr hf
  setCls := fun ⟨r, f, hr, hf⟩ _ => .mk r f hr hf
  setSkip := fun ⟨r, f, hr, hf⟩ _ => .mk r f hr hf
  clearTs := fun ⟨_, _, _, _⟩ => .mk 0 0 (.inl ⟨rfl, rfl⟩) (.inl ⟨rfl, rfl⟩)
  setTs := fun h => shiftedTo_setTs h d (shiftedTs_of_ne_zero hx hxy)
  unclassified := fun ⟨r, f, hr, hf⟩ => .mk r f hr hf

theorem shiftedTo_controlRelation (k : Nat) : ControlRelation (ShiftedTo k) where
  run := fun ⟨_, _, _, _⟩ => rfl
  stopped := fun ⟨r, f, hr, hf⟩ => .mk r f hr hf
  wdog := fun ⟨_, _, _, _⟩ => .mk 0 0 (.inl ⟨rfl, rfl⟩) (.inl ⟨rfl, rfl⟩)
  stop := fun ⟨r, f, hr, hf⟩ => .mk r f hr hf
  reset := fun ⟨_, _, _, _⟩ => .mk 0 0 (.inl ⟨rfl, rfl⟩) (.inl ⟨rfl, rfl⟩)

theorem exec_edge_shiftedTo {k : Nat} {s t : State} (h : ShiftedTo k s t) (d : Direction) {x y : Timestamp}
    (hx : x ≠ 0) (hxy : y.toNat = x.toNat + k) : SameOutcome (ShiftedTo k) (exec (edge d x) s) (exec (edge d y) t) :=
  exec_edge_related (shiftedTo_edgeRelation d hx hxy) (shiftedTo_pulseRelation k) h

/-- Settles O60: the offset is a relation that every operation keeps. -/
theorem equalOffsetsStepAlike : Obligations.EqualOffsetsStepAlike := by
  intro k s t h
  have hst := shiftedBy_iff_shiftedTo.1 h
  have hmono := @sameOutcome_mono _ _ fun s t => (shiftedBy_iff_shiftedTo (k := k) (s := s) (t := t)).2
  exact ⟨fun d x y hx hxy => hmono (exec_edge_shiftedTo hst d hx hxy),
    fun i hi => hmono (exec_nonEdge_related (shiftedTo_pulseRelation k) (shiftedTo_controlRelation k) hst hi)⟩

/-! ## Traces apart by one offset -/

/-- A trace and one later by `k`: the same directions, no timestamp 0, and every timestamp later by `k`. -/
def TraceShifted (k : Nat) : List (Direction × Timestamp) → List (Direction × Timestamp) → Prop :=
  List.Forall₂ fun e f => e.1 = f.1 ∧ e.2 ≠ 0 ∧ f.2.toNat = e.2.toNat + k

/-- Equal gaps after first timestamps apart by `k` are timestamps apart by `k` all along. -/
theorem traceShifted_of_gaps {k : Nat} : ∀ {es fs : List (Direction × Timestamp)}, Ascending es → Ascending fs →
    es.map Prod.fst = fs.map Prod.fst → gaps es = gaps fs →
    (∀ e ∈ es.head?, ∀ f ∈ fs.head?, f.2.toNat = e.2.toNat + k) → TraceShifted k es fs
  | [], [], _, _, _, _, _ => .nil
  | [], _ :: _, _, _, hdir, _, _ => nomatch hdir
  | _ :: _, [], _, _, hdir, _, _ => nomatch hdir
  | e :: es, f :: fs, ⟨hes0, hes⟩, ⟨hfs0, hfs⟩, hdir, hgaps, hhead => by
    obtain ⟨hd, hdirs⟩ := List.cons.inj hdir
    obtain ⟨he0, hes0⟩ := List.forall_mem_cons.1 hes0
    obtain ⟨hf0, hfs0⟩ := List.forall_mem_cons.1 hfs0
    obtain ⟨hele, hes⟩ := List.pairwise_cons.1 hes
    obtain ⟨hfle, hfs⟩ := List.pairwise_cons.1 hfs
    have hef : f.2.toNat = e.2.toNat + k := hhead e rfl f rfl
    refine .cons ⟨hd, he0, hef⟩ ?_
    refine traceShifted_of_gaps ⟨hes0, hes⟩ ⟨hfs0, hfs⟩ hdirs ?gaps ?head
    all_goals
      rcases es with _ | ⟨e', es⟩ <;> rcases fs with _ | ⟨f', fs⟩
    case gaps.nil.nil => rfl
    case gaps.cons.cons => exact (List.cons.inj hgaps).2
    case head.cons.cons =>
      rintro _ ⟨rfl⟩ _ ⟨rfl⟩
      have hgap := (List.cons.inj hgaps).1
      have hle := BitVec.le_def.1 (hele e' List.mem_cons_self)
      have hle' := BitVec.le_def.1 (hfle f' List.mem_cons_self)
      omega
    all_goals simp at hdirs ⊢

/-- Shifted traces from shifted states give the same records. -/
theorem runOuts_shifted {k : Nat} {es fs : List (Direction × Timestamp)} (hes : TraceShifted k es fs) {s t : State}
    (h : ShiftedTo k s t) : (runOuts (edges es) s).1 = (runOuts (edges fs) t).1 := by
  induction hes generalizing s t with
  | nil => rfl
  | @cons e f es fs hef _ ih =>
    obtain ⟨hd, he0, hef⟩ := hef
    have hstep := exec_edge_shiftedTo h e.1 he0 hef
    simp only [edges, List.map_cons, runOuts, ← hd]
    rcases sameOutcome_cases hstep with ⟨u, v, hu, hv, huv⟩ | ⟨x, hx, hy⟩ | ⟨x, hx, hy⟩
    · have hout : u.out = v.out := by cases huv; rfl
      rw [hu, hv]
      exact congrArg₂ List.cons hout (ih huv)
    · rw [hx, hy]
    · rw [hx, hy]

/-- The state a trace starts from is shifted to itself, its timestamps being unset. -/
theorem shiftedTo_reset (k : Nat) (p : Bool) (c : BitVec 8) :
    ShiftedTo k { State.reset with pol := p, century := c } { State.reset with pol := p, century := c } :=
  .mk 0 0 (.inl ⟨rfl, rfl⟩) (.inl ⟨rfl, rfl⟩)

/-- Settles O32: one of the two traces is later than the other by the offset of their first timestamps. -/
theorem translationInvariance : Obligations.TranslationInvariance := by
  intro es fs p c hes hfs hdir hgaps
  rcases es with _ | ⟨e, es⟩ <;> rcases fs with _ | ⟨f, fs⟩
  case nil.nil => rfl
  case nil.cons => simp at hdir
  case cons.nil => simp at hdir
  case cons.cons =>
    rcases Nat.le_total e.2.toNat f.2.toNat with hle | hle
    · refine runOuts_shifted (traceShifted_of_gaps hes hfs hdir hgaps ?_) (shiftedTo_reset (f.2.toNat - e.2.toNat) p c)
      rintro _ ⟨rfl⟩ _ ⟨rfl⟩
      omega
    · refine (runOuts_shifted (traceShifted_of_gaps hfs hes hdir.symm hgaps.symm ?_)
        (shiftedTo_reset (e.2.toNat - f.2.toNat) p c)).symm
      rintro _ ⟨rfl⟩ _ ⟨rfl⟩
      omega

/-! ## The mirror of the two directions -/

/-- The second state is the mirror of the first. -/
inductive IsMirror (s : State) : State → Prop
  | mk : IsMirror s s.mirror

theorem isMirror_pulseRelation : PulseRelation IsMirror where
  wOn := fun ⟨⟩ => rfl
  wOff := fun ⟨⟩ => rfl
  century := fun ⟨⟩ => rfl
  handsOver := fun ⟨⟩ => rfl
  channel := fun ⟨⟩ ch => by cases ch <;> rfl
  beginPulse := fun ⟨⟩ _ => .mk
  append := fun ⟨⟩ _ _ => .mk
  raiseTick := fun ⟨⟩ => .mk
  unexpected := fun ⟨⟩ => .mk
  recordFrame := fun ⟨⟩ _ _ => .mk
  deliverTime := fun ⟨⟩ _ => .mk
  emptyFrame := fun ⟨⟩ => .mk
  setWOff := fun ⟨⟩ _ => .mk
  setWOn := fun ⟨⟩ _ => .mk

/-- Both the direction and the level of `POL` are exchanged, so the pulse has the same polarity (R109). -/
theorem pulsePolarity_mirror (pol : Bool) : pulsePolarity (!pol) .falling = pulsePolarity pol .rising := by
  cases pol <;> rfl

/-- A falling edge in the mirror passes the tests of a rising edge (R111). -/
theorem isMirror_edgeRelation (x : Timestamp) : EdgeRelation IsMirror .rising .falling x x where
  run := fun ⟨⟩ => rfl
  skip := fun ⟨⟩ => rfl
  unset := fun ⟨⟩ => Iff.rfl
  wrap := fun ⟨⟩ => or_comm
  interval := fun ⟨⟩ _ _ => rfl
  polarity := fun ⟨⟩ => pulsePolarity_mirror _
  beginStep := fun ⟨⟩ => .mk
  setCls := fun ⟨⟩ _ => .mk
  setSkip := fun ⟨⟩ _ => .mk
  clearTs := fun ⟨⟩ => .mk
  setTs := fun ⟨⟩ => .mk
  unclassified := fun ⟨⟩ => .mk

theorem eq_andThen_of_isMirror {r r' : Result} (h : SameOutcome IsMirror r r') : r' = andThen r State.mirror := by
  rcases sameOutcome_cases h with ⟨s, t, rfl, rfl, ⟨⟩⟩ | ⟨x, rfl, rfl⟩ | ⟨x, rfl, rfl⟩ <;> rfl

/-- Settles O30: the mirror is a relation an edge keeps, with its direction exchanged. -/
theorem fallingEdgeMirrorsRisingEdge : Obligations.FallingEdgeMirrorsRisingEdge := fun s t =>
  eq_andThen_of_isMirror (exec_edge_related (isMirror_edgeRelation t) isMirror_pulseRelation (IsMirror.mk (s := s)))

end Sys2Proof.Proofs
end

section
/-! PROOFS. The decoder of `42_validator_decoder.md`: a field of at most eight bits has two nibbles (R171), which bounds
every field of the decoded time below the width it has in `DT` (R79), and makes decoding undo encoding (R178). -/

open Sys2Proof Sys2Proof.Machine

namespace Sys2Proof.Proofs

/-! ## Fields of two nibbles -/

/-- The value of a field of at most eight bits, by its low and its high nibble. -/
theorem bcd_of_length_le {bits : List Bool} (h : bits.length ≤ 8) :
    bcd bits = packMsb bits % 16 + 10 * (packMsb bits / 16) := by
  have hlt : packMsb bits < 2 ^ 8 := (packMsb_lt bits).trans_le (Nat.pow_le_pow_right (by decide) h)
  have htwo : nibbleSum 2 (packMsb bits) = nibbleSum ((bits.length + 3) / 4) (packMsb bits) :=
    nibbleSum_of_lt (packMsb_lt_nibbles bits) (by omega)
  rw [bcd, ← htwo]
  simp only [nibbleSum]
  omega

section
variable (bits : List Bool) (lo : Nat) {len : Nat} (hlen : len ≤ 8)
include hlen

/-- The value of a field of `len` bits, by the nibbles of a packed value of `len` bits. -/
theorem bcd_slice : packMsb (slice bits lo len) < 2 ^ len ∧
    bcd (slice bits lo len) = packMsb (slice bits lo len) % 16 + 10 * (packMsb (slice bits lo len) / 16) := by
  have hle : (slice bits lo len).length ≤ len := List.length_take_le _ _
  exact ⟨(packMsb_lt _).trans_le (Nat.pow_le_pow_right (by decide) hle), bcd_of_length_le (hle.trans hlen)⟩

/-- A field's value needs no more bits than the field. -/
theorem bcd_slice_lt : bcd (slice bits lo len) < 2 ^ len := by
  obtain ⟨hlt, heq⟩ := bcd_slice bits lo hlen
  omega

/-- The greatest value of a field: 15 in the low nibble, all ones in what is left of the high one (R179). -/
theorem bcd_slice_le : bcd (slice bits lo len) ≤ 15 + 10 * ((2 ^ len - 1) / 16) := by
  obtain ⟨hlt, heq⟩ := bcd_slice bits lo hlen
  omega

end

theorem popcount_le_length (bits : List Bool) : popcount bits ≤ bits.length := by
  have h := List.sum_le_card_nsmul (bits.map Bool.toNat) 1 fun x hx => by
    obtain ⟨b, -, rfl⟩ := List.mem_map.1 hx
    exact b.toNat_le
  simpa [popcount] using h

theorem popcount_slice_le (bits : List Bool) (lo len : Nat) : popcount (slice bits lo len) ≤ len :=
  (popcount_le_length _).trans (List.length_take_le _ _)

/-! ## The decoded time -/

/-- No field of the decoded time is cut to fit its width (R172 to R174). -/
structure DecodedExactly (c : BitVec 8) (a b : List Bool) (t : DecodedTime) : Prop where
  year : t.year.toNat = (c.toNat - 1) * 100 + bcd (slice a 16 8)
  month : t.month.toNat = bcd (slice a 24 5)
  day : t.day.toNat = bcd (slice a 29 6)
  weekday : t.weekday.toNat = bcd (slice a 35 3)
  hour : t.hour.toNat = bcd (slice a 38 6)
  minute : t.minute.toNat = bcd (slice a 44 7)
  dut1 : t.dut1.toInt = (popcount (slice b 0 8) : Int) - (popcount (slice b 8 8) : Int)
  dstPending : t.dstPending = bitAt b 52
  dstActive : t.dstActive = bitAt b 57

theorem dut1_toInt (b : List Bool) :
    (dut1 b).toInt = (popcount (slice b 0 8) : Int) - (popcount (slice b 8 8) : Int) := by
  have hplus := popcount_slice_le b 0 8
  have hminus := popcount_slice_le b 8 8
  have hdut : dut1 b = BitVec.ofInt 5 ((popcount (slice b 0 8) : Int) - (popcount (slice b 8 8) : Int)) := rfl
  rw [hdut, BitVec.toInt_ofInt]
  exact Int.bmod_eq_of_le (by omega) (by omega)

theorem fullYear_lt (c : BitVec 8) (a : List Bool) : fullYear c a < 2 ^ 16 := by
  have hc := c.isLt
  have hyear := bcd_slice_lt a 16 (len := 8) (by decide)
  have hfull : fullYear c a = (c.toNat - 1) * 100 + bcd (slice a 16 8) := rfl
  omega

theorem toNat_ofNat_of_lt {w v : Nat} (h : v < 2 ^ w) : (BitVec.ofNat w v).toNat = v :=
  (BitVec.toNat_ofNat v w).trans (Nat.mod_eq_of_lt h)

theorem decodeTime_exact (c : BitVec 8) (a b : List Bool) : DecodedExactly c a b (decodeTime c a b) where
  year := toNat_ofNat_of_lt (fullYear_lt c a)
  month := toNat_ofNat_of_lt (bcd_slice_lt a 24 (by decide))
  day := toNat_ofNat_of_lt (bcd_slice_lt a 29 (by decide))
  weekday := toNat_ofNat_of_lt (bcd_slice_lt a 35 (by decide))
  hour := toNat_ofNat_of_lt (bcd_slice_lt a 38 (by decide))
  minute := toNat_ofNat_of_lt (bcd_slice_lt a 44 (by decide))
  dut1 := dut1_toInt b
  dstPending := rfl
  dstActive := rfl

/-- The ranges of R79, for every value of `CENTURY`. -/
theorem decodeTime_inRange (c : BitVec 8) (a b : List Bool) : TimeInRange (decodeTime c a b) := by
  have h := decodeTime_exact c a b
  have hplus := popcount_slice_le b 0 8
  have hminus := popcount_slice_le b 8 8
  have hc := c.isLt
  have hyear := bcd_slice_le a 16 (len := 8) (by decide)
  exact {
    year := by rw [h.year]; omega
    month := h.month.trans_le (bcd_slice_le a 24 (by decide))
    day := h.day.trans_le (bcd_slice_le a 29 (by decide))
    hour := h.hour.trans_le (bcd_slice_le a 38 (by decide))
    minute := h.minute.trans_le (bcd_slice_le a 44 (by decide))
    dut1_low := by rw [h.dut1]; omega
    dut1_high := by rw [h.dut1]; omega }

/-- A frame that passes every check has 59 pairs, so it is handed to the validator unless the minute is bad (R132,
R162). -/
theorem handsOver_of_passed {s : State} (hbad : s.bad = 0)
    (hv : validate (s.channel .A) (s.channel .B) = .passed) : s.handsOver = true := by
  obtain ⟨hlen, -⟩ := validate_passed.1 hv
  rw [State.channel_length] at hlen
  exact (State.handsOver_iff s).2 ⟨hbad, by omega, by omega⟩

/-- The marker pulse of a frame that passes, under a legal `CENTURY` (R132, R176). -/
theorem exec_off500_delivers {s : State} (hc : s.century ≠ 0) (hbad : s.bad = 0)
    (hv : validate (s.channel .A) (s.channel .B) = .passed) :
    exec .off500 s = .next
      (minuteClosed s .ok 0 (packTime (decodeTime s.century (s.channel .A) (s.channel .B))) true) := by
  have hh := handsOver_of_passed hbad hv
  rcases exec_off500_cases (s := s) (absurd · hc) with ⟨hh', -⟩ | ⟨-, c, g, hcg, -⟩ | ⟨-, -, ht⟩
  · simp [hh] at hh'
  · simp [hv] at hcg
  · exact ht

/-- Settles O46: the delivered time is the one in `DT`, whose fields hold the values of their slices. -/
theorem validFrameIsDecodedExactly : Obligations.ValidFrameIsDecodedExactly := by
  intro s hc hbad hv
  refine ⟨_, exec_off500_delivers hc hbad hv, ?_⟩
  have h := decodeTime_exact s.century (s.channel .A) (s.channel .B)
  rw [minuteClosed, unpackTime_packTime]
  exact ⟨h.year, h.month, h.day, h.weekday, h.hour, h.minute, h.dut1, h.dstPending, h.dstActive, rfl, rfl, rfl, rfl⟩

/-! ## Encoding -/

theorem bitsMsb_length (k v : Nat) : (bitsMsb k v).length = k := by
  induction k with
  | zero => rfl
  | succ k ih => rw [bitsMsb, List.length_cons, ih]

/-- The bits of a number, packed again, are the number without the bits above them. -/
theorem packMsb_bitsMsb (k v : Nat) : packMsb (bitsMsb k v) = v % 2 ^ k := by
  induction k with
  | zero => simp [bitsMsb, packMsb, Nat.mod_one]
  | succ k ih =>
    rw [bitsMsb, packMsb_cons, bitsMsb_length, ih, Nat.toNat_testBit, Nat.mod_pow_succ]
    ring

/-- Lists of one length with one packed value are equal. -/
theorem packMsb_injective : ∀ {bits bits' : List Bool}, bits.length = bits'.length → packMsb bits = packMsb bits' →
    bits = bits'
  | [], [], _, _ => rfl
  | b :: bits, b' :: bits', hlen, h => by
    have hlen' : bits.length = bits'.length := Nat.succ.inj hlen
    have hlt := packMsb_lt bits
    have hlt' := packMsb_lt bits'
    rw [packMsb_cons, packMsb_cons, hlen'] at h
    rw [hlen'] at hlt
    obtain rfl : b = b' := by
      by_contra hne
      obtain rfl := Bool.eq_not_of_ne hne
      cases b' <;> simp only [Bool.not_false, Bool.not_true, Bool.toNat_false, Bool.toNat_true] at h <;> omega
    rw [packMsb_injective hlen' (by omega)]

theorem bitsMsb_packMsb (bits : List Bool) : bitsMsb bits.length (packMsb bits) = bits :=
  packMsb_injective (bitsMsb_length _ _) ((packMsb_bitsMsb _ _).trans (Nat.mod_eq_of_lt (packMsb_lt bits)))

/-- The two digits of a number as nibbles (R178). -/
def digitNibbles (m : Nat) : Nat := m / 10 * 16 + m % 10

/-- For every length from 1 to 8 the encoding is the number's digits, where they are two and fit (R178). -/
theorem bcdEncode_eq_some_iff {m len : Nat} {bits : List Bool} :
    bcdEncode m len = some bits ↔
      (1 ≤ len ∧ len ≤ 8 ∧ m / 10 ≤ 9 ∧ digitNibbles m < 2 ^ len) ∧ bitsMsb len (digitNibbles m) = bits := by
  unfold bcdEncode digitNibbles
  by_cases hlen : len = 0 ∨ 8 < len
  · rw [if_pos hlen]
    simp only [reduceCtorEq, false_iff]
    omega
  · rw [if_neg hlen]
    by_cases h4 : len ≤ 4
    · have hpow : 2 ^ len ≤ 2 ^ 4 := Nat.pow_le_pow_right (by decide) h4
      have hfits : (m < 2 ^ len ∧ m ≤ 9) ↔
          (1 ≤ len ∧ len ≤ 8 ∧ m / 10 ≤ 9 ∧ m / 10 * 16 + m % 10 < 2 ^ len) := by omega
      rw [if_pos h4, Option.ite_none_right_eq_some, hfits, Option.some.injEq]
      refine and_congr_right fun h => ?_
      have hm : m / 10 * 16 + m % 10 = m := by omega
      rw [hm]
    · have hpow : 2 ^ len = 2 ^ (len - 4) * 2 ^ 4 := by
        rw [← Nat.pow_add]
        congr 1
        omega
      have hfits : (m / 10 < 2 ^ (len - 4) ∧ m / 10 ≤ 9) ↔
          (1 ≤ len ∧ len ≤ 8 ∧ m / 10 ≤ 9 ∧ m / 10 * 16 + m % 10 < 2 ^ len) := by omega
      rw [if_neg h4, Option.ite_none_right_eq_some, hfits, Option.some.injEq]

theorem bcdEncode_isSome_iff {m len : Nat} :
    (bcdEncode m len).isSome = true ↔ 1 ≤ len ∧ len ≤ 8 ∧ m / 10 ≤ 9 ∧ digitNibbles m < 2 ^ len := by
  rw [Option.isSome_iff_exists]
  simp only [bcdEncode_eq_some_iff, exists_and_left, exists_eq', and_true]

/-- Settles O49: an encoding is the digits of the number as nibbles, and decoding weighs them as digits again. -/
theorem bcdRoundTrip : Obligations.BcdRoundTrip := by
  refine ⟨fun m len bits h => ?decode, fun m len h1 h4 => ?short, fun m len h5 h8 => ?long,
    fun bits h1 h8 hlo hhi => ?converse, by decide, by decide⟩
  case decode =>
    obtain ⟨⟨-, h8, hten, hlt⟩, rfl⟩ := bcdEncode_eq_some_iff.1 h
    have hlen := bitsMsb_length len (digitNibbles m)
    have hpack : packMsb (bitsMsb len (digitNibbles m)) = digitNibbles m :=
      (packMsb_bitsMsb _ _).trans (Nat.mod_eq_of_lt hlt)
    refine ⟨hlen, hpack, ?_⟩
    rw [bcd_of_length_le (hlen.trans_le h8), hpack, digitNibbles]
    omega
  case short =>
    have hpow : 2 ^ len ≤ 2 ^ 4 := Nat.pow_le_pow_right (by decide) h4
    rw [bcdEncode_isSome_iff, digitNibbles]
    omega
  case long =>
    have hpow : 2 ^ len = 2 ^ (len - 4) * 2 ^ 4 := by
      rw [← Nat.pow_add]
      congr 1
      omega
    rw [bcdEncode_isSome_iff, digitNibbles]
    omega
  case converse =>
    have hnibbles : digitNibbles (bcd bits) = packMsb bits := by
      rw [digitNibbles, bcd_of_length_le h8]
      omega
    have hten : bcd bits / 10 ≤ 9 := by
      rw [bcd_of_length_le h8]
      omega
    rw [bcdEncode_eq_some_iff, hnibbles]
    exact ⟨⟨h1, h8, hten, packMsb_lt bits⟩, bitsMsb_packMsb bits⟩

end Sys2Proof.Proofs
end

section
/-! PROOFS. The invariant of `10_state.md` section 7. It speaks of the registers, which are followed from state to
state, and of the record of the last step, which every operation writes anew; an operation that completes keeps the first and
establishes the second. -/

open Sys2Proof Sys2Proof.Machine

namespace Sys2Proof.Proofs

/-! ## The two halves of the invariant -/

/-- What the invariant says of the registers alone. -/
structure RegistersInv (s : State) : Prop where
  n_le : s.n.toNat ≤ 61
  bufA_wf : s.bufA.wf = true
  bufB_wf : s.bufB.wf = true
  fst_pg : s.fst.code ≠ .parity → s.fst.pg = 0
  dt_unwritten : s.dtOk = false → s.dt = 0
  dt_written : s.fst.code = .ok → s.dtOk = true
  dt_range : TimeInRange (unpackTime s.dt)

/-- What the invariant says of the record of the last step. -/
structure RecordInv (s : State) : Prop where
  closed : s.out.fr ≠ .noFrame →
    s.n = 0 ∧ s.bad = 0 ∧ s.wOff = some .w500 ∧ s.fst = { code := s.out.fr, pg := s.out.pg }
  one_notification : s.out.tick = true → s.out.fr ≠ .ok
  no_unexpected_tick : s.out.tick = true → s.out.unexp = false

theorem inv_iff {s : State} : s.Inv ↔ RegistersInv s ∧ RecordInv s := by
  constructor
  · rintro ⟨hn, hA, hB, hclosed, hpg, hone, hunexp, hdt0, hdtw, hdtr⟩
    exact ⟨⟨hn, hA, hB, hpg, hdt0, hdtw, hdtr⟩, ⟨hclosed, hone, hunexp⟩⟩
  · rintro ⟨⟨hn, hA, hB, hpg, hdt0, hdtw, hdtr⟩, ⟨hclosed, hone, hunexp⟩⟩
    exact ⟨hn, hA, hB, hclosed, hpg, hone, hunexp, hdt0, hdtw, hdtr⟩

theorem registersInv_congr {s t : State} (h : RegistersInv s) (hn : t.n = s.n) (hA : t.bufA = s.bufA)
    (hB : t.bufB = s.bufB) (hfst : t.fst = s.fst) (hdt : t.dt = s.dt) (hok : t.dtOk = s.dtOk) : RegistersInv t := by
  obtain ⟨hn', hA', hB', hpg, hdt0, hdtw, hdtr⟩ := h
  constructor <;> simp only [hn, hA, hB, hfst, hdt, hok] <;> assumption

/-- A register of all zeros is in range. -/
theorem timeInRange_zero : TimeInRange (unpackTime 0) := by
  constructor <;> decide

/-! ## The registers -/

theorem registersInv_append {s t : State} (h : RegistersInv s) (a b : Bool) (hn : t.n = satIncN s.n)
    (hA : t.bufA = (s.append a b).bufA) (hB : t.bufB = (s.append a b).bufB) (hfst : t.fst = s.fst) (hdt : t.dt = s.dt)
    (hok : t.dtOk = s.dtOk) : RegistersInv t := by
  obtain ⟨hwfA, hwfB⟩ := State.append_wf a b h.bufA_wf h.bufB_wf
  have hle : (satIncN s.n).toNat ≤ 61 := (satIncN_toNat s.n).trans_le (Nat.min_le_right _ _)
  have happ : RegistersInv (s.append a b) :=
    ⟨hle, hwfA, hwfB, h.fst_pg, h.dt_unwritten, h.dt_written, h.dt_range⟩
  exact registersInv_congr happ hn hA hB hfst hdt hok

/-- A pulse keeps what the invariant says of the registers: it appends inside the buffers, or closes the minute with a
result that fits its parity group and, where that is OK, with a time in range. -/
theorem pulse_keeps_registersInv {p : Pulse} {s t : State} (h : RegistersInv s) (hp : PulseEnds s p t) :
    RegistersInv t := by
  cases hp with
  | storedOff | unexpectedOn | expectedOn => exact registersInv_congr h rfl rfl rfl rfl rfl rfl
  | appendedOff w a b => exact registersInv_append h a b rfl rfl rfl rfl rfl rfl
  | appendedOn => exact registersInv_append h false false rfl rfl rfl rfl rfl rfl
  | closeFailed c g hno hok hg =>
    exact ⟨Nat.zero_le 61, h.bufA_wf, h.bufB_wf, hg, h.dt_unwritten, (absurd · hok), h.dt_range⟩
  | closeDelivered =>
    refine ⟨Nat.zero_le 61, h.bufA_wf, h.bufB_wf, fun _ => rfl, nofun, fun _ => rfl, ?_⟩
    simp only [State.setWOff_dt, State.emptyFrame_dt, State.deliverTime_dt, unpackTime_packTime]
    exact decodeTime_inRange _ _ _

/-- An edge that ends in the classifier touches no register of the invariant. -/
theorem edgeEnds_keeps_registersInv {d : Direction} {x : Timestamp} {s t : State} (h : RegistersInv s)
    (he : EdgeEnds d x s t) : RegistersInv t := by
  have hk := edgeEnds_noPulse he
  have hbuf : t.bufA = s.bufA ∧ t.bufB = s.bufB := by cases he <;> simp
  exact registersInv_congr h hk.n hbuf.1 hbuf.2 hk.fst hk.dt hk.dtOk

theorem exec_keeps_registersInv {i : Instr} {s t : State} (h : RegistersInv s) (hi : exec i s = .next t) :
    RegistersInv t := by
  refine exec_elim hi ?stopped ?reset ?wdog ?stop ?edge ?pulse
  case stopped =>
    rintro - - rfl
    exact registersInv_congr h rfl rfl rfl rfl rfl rfl
  case reset =>
    rintro - rfl
    exact ⟨Nat.zero_le 61, h.bufA_wf, h.bufB_wf, fun _ => rfl, fun _ => rfl, nofun, timeInRange_zero⟩
  case wdog =>
    rintro - - rfl
    exact ⟨Nat.zero_le 61, h.bufA_wf, h.bufB_wf, h.fst_pg, h.dt_unwritten, h.dt_written, h.dt_range⟩
  case stop =>
    rintro - - rfl
    exact registersInv_congr h rfl rfl rfl rfl rfl rfl
  case edge => exact fun d x _ _ he => edgeEnds_keeps_registersInv h he
  case pulse =>
    rintro p s' (⟨rfl, -⟩ | ⟨d, x, -, -, -, rfl⟩) hp
    · exact pulse_keeps_registersInv h (exec_pulse_ends hp)
    · have hs : RegistersInv (s.beginStep.setTs d x) := by
        refine registersInv_congr h ?_ ?_ ?_ ?_ ?_ ?_ <;> cases d <;> rfl
      exact pulse_keeps_registersInv hs (exec_pulse_ends hp)

/-! ## The record -/

/-- A step that closes no minute and does not tick satisfies what the invariant says of the record. -/
theorem recordInv_of_quiet {t : State} (hfr : t.out.fr = .noFrame) (htick : t.out.tick = false) : RecordInv t := by
  constructor <;> simp [hfr, htick]

theorem pulse_recordInv {p : Pulse} {s t : State} (hp : PulseEnds s p t) : RecordInv t := by
  cases hp with
  | appendedOff | storedOff | unexpectedOn => exact recordInv_of_quiet rfl rfl
  | expectedOn | appendedOn => exact ⟨(absurd rfl ·), nofun, fun _ => rfl⟩
  | closeFailed | closeDelivered => exact ⟨fun _ => ⟨rfl, rfl, rfl, rfl⟩, nofun, nofun⟩

theorem exec_recordInv {i : Instr} {s t : State} (hi : exec i s = .next t) : RecordInv t := by
  refine exec_elim hi ?stopped ?reset ?wdog ?stop ?edge ?pulse
  case stopped =>
    rintro - - rfl
    exact recordInv_of_quiet rfl rfl
  case reset =>
    rintro - rfl
    exact recordInv_of_quiet rfl rfl
  case wdog =>
    rintro - - rfl
    exact recordInv_of_quiet rfl rfl
  case stop =>
    rintro - - rfl
    exact recordInv_of_quiet rfl rfl
  case edge => exact fun d x _ _ he => recordInv_of_quiet (edgeEnds_noPulse he).fr (edgeEnds_no_tick he)
  case pulse => exact fun p s' _ hp => pulse_recordInv (exec_pulse_ends hp)

/-! ## The statements -/

/-- Settles O14: the registers hold zeros and the buffers list nothing. -/
theorem resetHasTheInvariant : Obligations.ResetHasTheInvariant :=
  inv_iff.2 ⟨⟨Nat.zero_le 61, rfl, rfl, fun _ => rfl, fun _ => rfl, nofun, timeInRange_zero⟩,
    recordInv_of_quiet rfl rfl⟩

/-- Settles O15: a step idles, which touches nothing the invariant speaks of, or runs an operation. -/
theorem stepKeepsTheInvariant : Obligations.StepKeepsTheInvariant := by
  intro s t hinv hstep
  obtain ⟨hregs, hrec⟩ := inv_iff.1 hinv
  rcases step_cases hstep with ⟨-, rfl⟩ | ⟨x, rest, i, -, -, -, hi⟩
  · exact inv_iff.2 ⟨registersInv_congr hregs rfl rfl rfl rfl rfl rfl,
      ⟨hrec.closed, hrec.one_notification, hrec.no_unexpected_tick⟩⟩
  · have htaken : RegistersInv (s.takeInput x rest) := registersInv_congr hregs rfl rfl rfl rfl rfl rfl
    exact inv_iff.2 ⟨exec_keeps_registersInv htaken hi, exec_recordInv hi⟩

end Sys2Proof.Proofs
end

section
/-! PROOFS. Failures (`60_exceptions.md`, `70_reset_and_hazards.md`): the one stop of an operation is a decode under the
reserved `CENTURY = 0` (R34, R200), a step reports at most one failure (R207), and a bad packet costs the minute
(R246). -/

open Sys2Proof Sys2Proof.Machine

namespace Sys2Proof.Proofs

/-! ## Where an operation stops -/

/-- A frame that passes every check under the reserved `CENTURY` (R34, U7). -/
structure CenturyNeeded (s : State) : Prop where
  century : s.century = 0
  bad : s.bad = 0
  passed : validate (s.channel .A) (s.channel .B) = .passed

theorem exec_off500_refuses {s : State} (h : CenturyNeeded s) : exec .off500 s = .refused .centuryReserved := by
  have hclose : (s.beginPulse ⟨.carrierOff, .w500⟩).closeMinute = .refused .centuryReserved :=
    State.closeMinute_refused (handsOver_of_passed h.bad h.passed) h.passed h.century
  rw [exec_off500, hclose, andThen_refused]

/-- A pulse completes, or it is the marker pulse of such a frame. -/
theorem exec_pulse_completes (p : Pulse) (s : State) :
    (∃ t, exec p.instr s = .next t) ∨
      (p = ⟨.carrierOff, .w500⟩ ∧ CenturyNeeded s ∧ exec p.instr s = .refused .centuryReserved) := by
  rcases p with ⟨_ | _, w⟩
  case carrierOn => exact .inl ⟨_, exec_on w s⟩
  case carrierOff =>
    by_cases hw : w = .w500
    · subst hw
      by_cases hc : CenturyNeeded s
      · exact .inr ⟨rfl, hc, exec_off500_refuses hc⟩
      · obtain ⟨u, hu⟩ := exec_off500_completes (s := s) fun h0 ⟨hbad, hv⟩ => hc ⟨h0, hbad, hv⟩
        exact .inl ⟨u.setWOff .w500, andThen_eq_next.2 ⟨u, hu, rfl⟩⟩
    · exact .inl ⟨_, exec_off hw s⟩

/-- An edge completes, or it is the operation of a pulse on the state with its timestamp recorded (R105, R109). -/
theorem exec_edge_completes (d : Direction) (x : Timestamp) (s : State) :
    (∃ t, exec (edge d x) s = .next t) ∨ ∃ p : Pulse, exec (edge d x) s = exec p.instr (s.setTs d x) := by
  cases hr : s.run with
  | false => exact .inl ⟨_, exec_event_stopped hr (.inl ⟨d, x, rfl⟩)⟩
  | true =>
    rcases exec_edge_cases (d := d) (t := x) hr with ⟨u, hu, -⟩ | ⟨-, -, -, -, w, -, hu⟩
    · exact .inl ⟨u, hu⟩
    · rw [setTs_beginStep, exec_pulse_beginStep] at hu
      exact .inr ⟨_, hu⟩

/-- Recording a timestamp changes nothing the refusal depends on. -/
theorem centuryNeeded_setTs {d : Direction} {x : Timestamp} {s : State} (h : CenturyNeeded (s.setTs d x)) :
    CenturyNeeded s := by
  cases d <;> exact ⟨h.century, h.bad, h.passed⟩

/-- Every operation completes, or it is `OFF.500`, on its own or run by an edge, on a frame that needs the reserved
`CENTURY`. -/
theorem exec_completes (i : Instr) (s : State) :
    (∃ t, exec i s = .next t) ∨
      (CenturyNeeded s ∧ exec i s = .refused .centuryReserved ∧
        (i = .off500 ∨ ∃ d x, i = edge d x ∧ exec .off500 (s.setTs d x) = exec i s)) := by
  rcases instr_cases i with ⟨d, x, rfl⟩ | rfl | rfl | rfl | ⟨p, rfl⟩
  case inl =>
    rcases exec_edge_completes d x s with hnext | ⟨p, hp⟩
    · exact .inl hnext
    · rcases exec_pulse_completes p (s.setTs d x) with ⟨t, ht⟩ | ⟨rfl, hc, hrefused⟩
      · exact .inl ⟨t, hp.trans ht⟩
      · exact .inr ⟨centuryNeeded_setTs hc, hp.trans hrefused, .inr ⟨d, x, rfl, hp.symm⟩⟩
  case inr.inl =>
    cases hr : s.run with
    | true => exact .inl ⟨_, exec_wdog_running hr⟩
    | false => exact .inl ⟨_, exec_event_stopped hr (.inr (.inl rfl))⟩
  case inr.inr.inl =>
    cases hr : s.run with
    | true => exact .inl ⟨_, exec_stop_running hr⟩
    | false => exact .inl ⟨_, exec_event_stopped hr (.inr (.inr rfl))⟩
  case inr.inr.inr.inl => exact .inl ⟨_, exec_reset s⟩
  case inr.inr.inr.inr =>
    rcases exec_pulse_completes p s with hnext | ⟨rfl, hc, hrefused⟩
    · exact .inl hnext
    · exact .inr ⟨hc, hrefused, .inl rfl⟩

theorem exec_ne_fault (i : Instr) (s : State) (f : Fault) : exec i s ≠ .fault f := by
  rcases exec_completes i s with ⟨t, ht⟩ | ⟨-, hrefused, -⟩
  · simp [ht]
  · simp [hrefused]

theorem exec_completes_of_century {s : State} (hc : s.century ≠ 0) (i : Instr) : ∃ t, exec i s = .next t :=
  (exec_completes i s).resolve_right fun ⟨hneeded, _⟩ => hc hneeded.century

/-- Settles O47: an operation that does not complete is one of those of `exec_completes`. -/
theorem onlyTheReservedCenturyIsRefused : Obligations.OnlyTheReservedCenturyIsRefused := by
  refine ⟨fun s hc hbad hv => exec_off500_refuses ⟨hc, hbad, hv⟩, fun i s r hr => ?_, exec_ne_fault⟩
  rcases exec_completes i s with ⟨t, ht⟩ | ⟨hneeded, hrefused, hi⟩
  · exact absurd (ht.symm.trans hr) nofun
  · exact ⟨Host.Outcome.refused.inj (hr.symm.trans hrefused), hneeded.century, hneeded.bad, hneeded.passed, hi⟩

/-- Settles O50: with a legal `CENTURY` the one refusal cannot occur. -/
theorem nothingIsFatal : Obligations.NothingIsFatal :=
  ⟨exec_ne_fault, fun i _ hc => exec_completes_of_century hc i⟩

/-! ## One report in a step -/

/-- The exclusions of R207, of a record. -/
structure ReportsOne (o : OutRecord) : Prop where
  unclassified : o.cls = .unclassified → o = { cls := .unclassified }
  unexpected : o.unexp = true → o.tick = false ∧ o.app = false ∧ o.fr = .noFrame
  closed : o.fr ≠ .noFrame → o.cls = .sym .w500 ∧ o.pol = false ∧ o.tick = false ∧ o.app = false
  watchdog : o.wd = true → o = { wd := true }

/-- The record of a step that dispatches no pulse shows at most its classifier result and the watchdog flag. -/
theorem reportsOne_of_cls (c : ClsResult) : ReportsOne { cls := c } := by
  constructor <;> simp

theorem pulse_reportsOne {p : Pulse} {s t : State} (hp : PulseEnds s p t) : ReportsOne t.out := by
  cases hp with
  | closeFailed | closeDelivered => exact ⟨nofun, nofun, fun _ => ⟨rfl, rfl, rfl, rfl⟩, nofun⟩
  | unexpectedOn => exact ⟨nofun, fun _ => ⟨rfl, rfl, rfl⟩, (absurd rfl ·), nofun⟩
  | appendedOff | storedOff | expectedOn | appendedOn => exact ⟨nofun, nofun, (absurd rfl ·), nofun⟩

theorem edgeEnds_reportsOne {d : Direction} {x : Timestamp} {s t : State} (he : EdgeEnds d x s t) :
    ReportsOne t.out := by
  cases he <;> exact reportsOne_of_cls _

theorem exec_reportsOne {i : Instr} {s t : State} (h : exec i s = .next t) : ReportsOne t.out := by
  refine exec_elim h ?stopped ?reset ?wdog ?stop ?edge ?pulse
  case stopped =>
    rintro - - rfl
    exact reportsOne_of_cls .stopped
  case reset =>
    rintro - rfl
    exact reportsOne_of_cls .none
  case wdog =>
    rintro - - rfl
    exact ⟨nofun, nofun, (absurd rfl ·), fun _ => rfl⟩
  case stop =>
    rintro - - rfl
    exact reportsOne_of_cls .none
  case edge => exact fun d x _ _ he => edgeEnds_reportsOne he
  case pulse => exact fun p s' _ hp => pulse_reportsOne (exec_pulse_ends hp)

/-- Settles O56: every operation writes a record of one kind. -/
theorem atMostOneReportInAStep : Obligations.AtMostOneReportInAStep := by
  intro i s t h
  obtain ⟨hcls, hunexp, hfr, hwd⟩ := exec_reportsOne h
  exact ⟨hcls, hunexp, hfr, hwd⟩

/-! ## A bad packet costs the minute -/

/-- A bad minute is not handed to the validator, so its close is DISCARDED (R132). -/
theorem pulse_discards {p : Pulse} {s t : State} (hbad : s.bad ≠ 0) (h : exec p.instr s = .next t) :
    t.out.fr = .noFrame ∨ t.out.fr = .discarded := by
  rcases p with ⟨_ | _, w⟩
  case carrierOff =>
    rcases exec_off_cases h with ⟨-, a, b, -, rfl⟩ | ⟨-, -, rfl⟩ | ⟨rfl, u, hu, rfl⟩
    · exact .inl rfl
    · exact .inl rfl
    · have hheld : (s.beginPulse ⟨.carrierOff, .w500⟩).handsOver = false :=
        Bool.eq_false_iff.2 fun hh => hbad ((State.handsOver_iff _).1 hh).1
      obtain rfl := Host.Outcome.next.inj ((State.closeMinute_discarded hheld).symm.trans hu)
      exact .inr rfl
  case carrierOn =>
    rcases exec_on_cases h with ⟨-, rfl⟩ | ⟨-, -, rfl⟩ | ⟨rfl, -, -, rfl⟩ <;> exact .inl rfl

theorem exec_discards {i : Instr} {s t : State} (hbad : s.bad ≠ 0) (h : exec i s = .next t) :
    t.out.fr = .noFrame ∨ t.out.fr = .discarded := by
  refine exec_elim h ?stopped ?reset ?wdog ?stop ?edge ?pulse
  case stopped =>
    rintro - - rfl
    exact .inl rfl
  case reset =>
    rintro - rfl
    exact .inl rfl
  case wdog =>
    rintro - - rfl
    exact .inl rfl
  case stop =>
    rintro - - rfl
    exact .inl rfl
  case edge => exact fun d x _ _ he => .inl (edgeEnds_noPulse he).fr
  case pulse =>
    rintro p s' (⟨rfl, -⟩ | ⟨d, x, -, -, -, rfl⟩) hp
    · exact pulse_discards hbad hp
    · exact pulse_discards (by simpa using hbad) hp

/-- Settles O57: the frame result is never OK, so `DT` is kept, and `bad` counts up or is kept until a close or a
clearing step. -/
theorem oneErrorCostsTheMinute : Obligations.OneErrorCostsTheMinute := by
  intro i s t hbad h
  have hfr := exec_discards hbad h
  have hnotOk : t.out.fr ≠ .ok := by rcases hfr with hfr | hfr <;> simp [hfr]
  obtain ⟨hcounts, -, hkept⟩ := badPacketCountRule i s t h
  obtain ⟨-, -, -, -, -, hdt⟩ := resultRegistersKeepTheLastResult i s t h
  refine ⟨hfr, ?_, hdt hnotOk⟩
  by_cases hcount : t.out.cls = .unclassified ∨ t.out.unexp = true
  · exact .inl (hcounts hcount ▸ satInc8_ne_zero s.bad)
  · obtain ⟨hcls, hunexp⟩ := not_or.1 hcount
    by_cases hclear : t.out.fr ≠ .noFrame ∨ i = .reset ∨ i = .wdog ∧ s.run = true
    · rcases hclear with hclosed | rfl | ⟨rfl, -⟩
      · exact .inr (.inl (hfr.resolve_left hclosed))
      · exact .inr (.inr (.inr rfl))
      · exact .inr (.inr (.inl rfl))
    · exact .inl (hkept hcls (Bool.eq_false_iff.2 hunexp) hclear ▸ hbad)

end Sys2Proof.Proofs
end

section
/-! PROOFS. The classifier of `40_classifier.md` on whole edges: the windows of R107 at their bounds and for either
reading of the tolerance (U5), what a classified edge leaves (R105, R109), and an edge at time 0 (R241). -/

open Sys2Proof Sys2Proof.Machine

namespace Sys2Proof.Proofs

/-! ## The windows -/

/-- The window of a width is the interval of `35,000` about it (R107). -/
theorem classifyInterval_bounds {delta lo hi : Nat} {w : Width} (hlo : lo + 35000 = 1000 * w.ms)
    (hhi : hi = 1000 * w.ms + 35000) : classifyInterval delta = some w ↔ lo ≤ delta ∧ delta ≤ hi := by
  rw [classifyInterval_eq_some_iff, InWindow]
  omega

/-- Settles O25: each row of R107 is its width with the tolerance on both sides. -/
theorem classificationWindows : Obligations.ClassificationWindows := fun _ =>
  ⟨classifyInterval_bounds rfl rfl, classifyInterval_bounds rfl rfl, classifyInterval_bounds rfl rfl,
    classifyInterval_bounds rfl rfl, classifyInterval_bounds rfl rfl, classifyInterval_bounds rfl rfl,
    classifyInterval_bounds rfl rfl, classifyInterval_bounds rfl rfl⟩

/-- The reading that leaves the bounds out has the smaller windows. -/
theorem inWindow_of_withinWindow {inclusive : Bool} {delta : Nat} {w : Width}
    (h : withinWindow inclusive delta w = true) : InWindow delta w := by
  cases inclusive with
  | true => exact (withinWindow_iff_inWindow delta w).1 h
  | false =>
    simp only [withinWindow, Params.tTol, Bool.false_eq_true, if_false, decide_eq_true_eq] at h
    rw [InWindow]
    omega

/-- Settles O26: the windows with their bounds are disjoint. -/
theorem windowsAreDisjoint : Obligations.WindowsAreDisjoint :=
  fun _ _ _ _ hv hw => width_eq_of_inWindow (inWindow_of_withinWindow hv) (inWindow_of_withinWindow hw)

/-! ## A classified edge -/

@[simp] theorem ts_setTs_same (s : State) (d : Direction) (x : Timestamp) : (s.setTs d x).ts d = x := by
  cases d <;> rfl

@[simp] theorem ts_setTs_opp (s : State) (d : Direction) (x : Timestamp) : (s.setTs d x).ts d.opp = s.ts d.opp := by
  cases d <;> rfl

/-- A carrier-off pulse ends with the carrier-on edge (R109). -/
theorem pulsePolarity_off_iff (pol : Bool) (d : Direction) :
    decide (pulsePolarity pol d = .carrierOn) = false ↔ (d = .rising ↔ pol = true) := by
  cases d <;> cases pol <;> decide

/-- Settles O29: the edge is a pulse operation, which completes and keeps what the statement names. -/
theorem classifiedEdgeCompletes : Obligations.ClassifiedEdgeCompletes := by
  intro s d t w hr hs h0 hrise hfall hlo hhi hc
  obtain ⟨u, hu⟩ := exec_completes_of_century hc (edge d t)
  have hpulse := exec_edge_classified hr hs h0 hrise hfall ⟨hlo, hhi⟩
  obtain ⟨hcls, hpol, -, hrun, hskip, hlevel, hcent, htr, htf, hvalid, hinbox⟩ := pulse_leaves (hpulse.symm.trans hu)
  have hts : ∀ e, u.ts e = (s.setTs d t).ts e := fun e => by cases e <;> assumption
  refine ⟨u, hu, hcls, ?_, ?_, ?_, ?_, ?_, ?_, ?_, hvalid, ?_⟩
  · rw [hpol]
    exact pulsePolarity_off_iff s.pol d
  · rw [hts, ts_setTs_same]
  · rw [hts, ts_setTs_opp]
  · rw [hskip, State.setTs_skip, hs]
  · rw [hrun, State.setTs_run, hr]
  · rw [hlevel, State.setTs_pol]
  · rw [hcent, State.setTs_century]
  · rw [hinbox, State.setTs_inbox]

/-! ## Time 0 -/

/-- Settles O31: an edge at 0 seeds with 0, or it comes before the stored opposite timestamp. -/
theorem timestampZeroStaysUnset : Obligations.TimestampZeroStaysUnset := by
  intro s d hr hs
  by_cases h0 : s.ts d.opp = 0
  · exact ⟨_, exec_edge_seeds hr hs h0, rfl, by cases d <;> rfl⟩
  · have hwrap : 0 < s.tsRise ∨ 0 < s.tsFall := by
      have hpos : 0 < s.ts d.opp := (BitVec.pos_iff_ne_zero _).2 h0
      cases d
      · exact .inr hpos
      · exact .inl hpos
    exact ⟨_, exec_edge_wraps hr hs h0 hwrap, rfl, by cases d <;> rfl⟩

end Sys2Proof.Proofs
end

section
/-! PROOFS. The kinds of second of `41_assembler.md` section 4: which pairs of widths make a second (R138), and what
each kind appends, counts and ticks (R146). -/

open Sys2Proof Sys2Proof.Machine

namespace Sys2Proof.Proofs

/-- Settles O38: the seven pairs are those of `secondPartner`. -/
theorem expectedPairsMakeASecond : Obligations.ExpectedPairsMakeASecond := by
  intro w wOff
  rw [unexpected_eq_false_iff]
  cases w <;> simp [secondPartner]

/-! ## One equation per outcome of a carrier-on pulse -/

theorem exec_on_unexpected {w : Width} {s : State} (hu : unexpected w s.wOff = true) :
    exec (Pulse.instr ⟨.carrierOn, w⟩) s = .next (onUnexpected s w) := by
  obtain ⟨t, ht, ⟨-, rfl⟩ | ⟨-, hf, -⟩ | ⟨-, -, hf, -⟩⟩ := exec_on_outcome w s
  · exact ht
  · simp [hu] at hf
  · simp [hu] at hf

theorem exec_on_expected {w : Width} {s : State} (hw : w ≠ .w900) (hf : unexpected w s.wOff = false) :
    exec (Pulse.instr ⟨.carrierOn, w⟩) s = .next (onExpected s w) := by
  obtain ⟨t, ht, ⟨hu, -⟩ | ⟨-, -, rfl⟩ | ⟨h9, -⟩⟩ := exec_on_outcome w s
  · simp [hf] at hu
  · exact ht
  · exact absurd h9 hw

theorem exec_on900_appends {s : State} (hoff : s.wOff = some .w100) :
    exec .on900 s = .next ((((s.beginPulse ⟨.carrierOn, .w900⟩).append false false).raiseTick).setWOn .w900) := by
  obtain ⟨t, ht, ⟨hu, -⟩ | ⟨h9, -⟩ | ⟨-, -, -, rfl⟩⟩ := exec_on_outcome .w900 s
  · rw [hoff] at hu
    exact absurd hu (by decide)
  · exact absurd rfl h9
  · exact ht

/-! ## Seconds -/

theorem runOuts_cons_some {i : Instr} {is : List Instr} {s t u : State} {o : List OutRecord} (hi : exec i s = .next t)
    (his : runOuts is t = (o, some u)) : runOuts (i :: is) s = (t.out :: o, some u) := by
  rw [runOuts_cons_next is hi, his]

theorem runOuts_two {i j : Instr} {s t u : State} (hi : exec i s = .next t) (hj : exec j t = .next u) :
    runOuts [i, j] s = ([t.out, u.out], some u) :=
  runOuts_cons_some hi (runOuts_cons_some hj rfl)

/-- An undisturbed data second: it appends its pair at `n`, counts no bad packet and ticks once, at its end. -/
def DataSecond (is : List Instr) (s : State) (a b : Bool) : Prop :=
  ∃ t o, runOuts is s = (o, some t) ∧ CellsAppended s t a b ∧ t.n.toNat = min (s.n.toNat + 1) 61 ∧ t.bad = s.bad ∧
    o.map OutRecord.tick = [false, true]

theorem exec_off_of_offPair {s : State} {w : Width} {a b : Bool} (hpair : offPair s w = some (a, b)) :
    exec (Pulse.instr ⟨.carrierOff, w⟩) s = .next (((s.beginPulse ⟨.carrierOff, w⟩).append a b).setWOff w) := by
  rw [exec_off (ne_marker_of_offPair hpair), hpair]

/-- What a carrier-off pulse that only stores its width makes of a state (R136). -/
def offStored (s : State) (w : Width) : State :=
  { s with wOff := some w, out := { cls := .sym w }, outValid := true }

/-- With no 100 ms carrier-on pulse before it a 100 ms carrier-off pulse has no pair (R133). -/
theorem exec_off100_stores {s : State} (hon : s.wOn ≠ some .w100) :
    exec .off100 s = .next (offStored s .w100) :=
  exec_off_stores (w := .w100) (by decide) (if_neg fun h => hon h.1)

section
variable {s : State} (hA : s.bufA.wf = true) (hB : s.bufB.wf = true)
include hA hB

/-- The (0,0) second appends with its carrier-on pulse (R140). -/
theorem dataSecond_of_on900 (hon : s.wOn ≠ some .w100) : DataSecond [.off100, .on900] s false false :=
  ⟨_, _, runOuts_two (exec_off100_stores hon) (exec_on900_appends rfl), State.append_cells false false hA hB rfl rfl,
    satIncN_toNat s.n, rfl, rfl⟩

/-- A second whose carrier-off pulse has the pair, and whose carrier-on pulse makes 1000 ms with it (R134, R135). -/
theorem dataSecond_of_offPair {v w : Width} {a b : Bool} (hpair : offPair s v = some (a, b)) (hw : w ≠ .w900)
    (hsecond : unexpected w (some v) = false) :
    DataSecond [Pulse.instr ⟨.carrierOff, v⟩, Pulse.instr ⟨.carrierOn, w⟩] s a b :=
  ⟨_, _, runOuts_two (exec_off_of_offPair hpair) (exec_on_expected hw hsecond), State.append_cells a b hA hB rfl rfl,
    satIncN_toNat s.n, rfl, rfl⟩

/-- The (0,1) second: both its carrier-on pulses are unexpected, and the first of them makes the carrier-off pulse
between them the tri-transition (R133, R138). -/
theorem triTransitionSecond (hon : s.wOn ≠ some .w100) :
    ∃ t o, runOuts [.off100, .on100, .off100, .on700] s = (o, some t) ∧ CellsAppended s t false true ∧
      t.n.toNat = min (s.n.toNat + 1) 61 ∧ t.bad.toNat = min (s.bad.toNat + 2) 255 ∧
      o.map OutRecord.tick = [false, false, false, false] := by
  have hoff := exec_off100_stores hon
  have hon1 : exec .on100 (offStored s .w100) = .next (onUnexpected (offStored s .w100) .w100) :=
    exec_on_unexpected (w := .w100) (show unexpected .w100 (some .w100) = true by decide)
  have hoff2 := exec_off_of_offPair (s := onUnexpected (offStored s .w100) .w100) (w := .w100) rfl
  have hon2 := exec_on_unexpected (w := .w700)
    (s := (((onUnexpected (offStored s .w100) .w100).beginPulse ⟨.carrierOff, .w100⟩).append false true).setWOff .w100)
    (show unexpected .w700 (some .w100) = true by decide)
  have hbad : (satInc8 (satInc8 s.bad)).toNat = min (s.bad.toNat + 2) 255 := by
    rw [satInc8_toNat, satInc8_toNat]
    omega
  exact ⟨_, _, runOuts_cons_some hoff (runOuts_cons_some hon1 (runOuts_two hoff2 hon2)),
    State.append_cells false true hA hB rfl rfl, satIncN_toNat s.n, hbad, rfl⟩

end

/-- The marker second closes the minute, whatever its result (R132, R142). -/
theorem markerSecond {s : State} (hc : s.century ≠ 0) :
    ∃ t o, runOuts [.off500, .on500] s = (o, some t) ∧ CellsKept s t ∧ t.n = 0 ∧ t.bad = 0 ∧
      o.map OutRecord.tick = [false, true] := by
  obtain ⟨c, g, dt, ok, hoff⟩ : ∃ c g dt ok, exec .off500 s = .next (minuteClosed s c g dt ok) := by
    rcases exec_off500_cases (s := s) (absurd · hc) with ⟨-, ht⟩ | ⟨-, c, g, -, ht⟩ | ⟨-, -, ht⟩ <;>
      exact ⟨_, _, _, _, ht⟩
  have hon := exec_on_expected (w := .w500) (s := minuteClosed s c g dt ok) (by decide)
    (show unexpected .w500 (some .w500) = false by decide)
  exact ⟨_, _, runOuts_two hoff hon, State.readCell_congr rfl rfl, rfl, rfl, rfl⟩

/-- Settles O43: the four data seconds and the marker second. -/
theorem kindsOfSecond : Obligations.KindsOfSecond := by
  intro s hA hB hon hc
  exact ⟨dataSecond_of_on900 hA hB hon,
    dataSecond_of_offPair (v := .w200) (w := .w800) hA hB rfl (by decide) (by decide),
    dataSecond_of_offPair (v := .w300) (w := .w700) hA hB rfl (by decide) (by decide),
    triTransitionSecond hA hB hon, markerSecond hc⟩

end Sys2Proof.Proofs
end
